-- ==== Sys2Proof/Word.lean ====
section
/-! DEFINITION. The FLB's units of transfer: the 32-bit word (R66), the 8-bit selector (R81) and the transport
byte (R67). -/

namespace Sys2Proof

/-- A 32-bit interface word: a command word, an operand, a response, a sample or a register value (R8, R66). -/
abbrev Word := BitVec 32

/-- The selector field SEL of a command word, an unsigned 8-bit integer (R81, R83). -/
abbrev Sel := BitVec 8

/-- A byte of a transport that carries words as bytes (R67). -/
abbrev Byte := BitVec 8

end Sys2Proof
end

