-- ==== Sys2Proof/Machine/Memory.lean ====
section
/-! DEFINITION. Sparse storage: a list of (index, value) pairs, indices strictly rising, none of them holding what an
unlisted index reads as. Delay-line storage (R60) and the bank of delay lines (R33) are held so. -/

namespace Sys2Proof.Machine

/-- What index `a` holds; `d` is what an unlisted index reads as. -/
def Memory.get {α : Type} (d : α) : List (Nat × α) → Nat → α
  | [], _ => d
  | (k, v) :: m, a => if k = a then v else Memory.get d m a

/-- A new entry at its place in the rising order. -/
def Memory.insert {α : Type} : List (Nat × α) → Nat → α → List (Nat × α)
  | [], a, v => [(a, v)]
  | (k, w) :: m, a, v => if a < k then (a, v) :: (k, w) :: m else (k, w) :: Memory.insert m a v

/-- Store `v` at index `a`. Storing what an unlisted index reads as removes the entry. -/
def Memory.set {α : Type} [DecidableEq α] (d : α) (m : List (Nat × α)) (a : Nat) (v : α) : List (Nat × α) :=
  let others := m.filter (fun e => e.1 ≠ a)
  if v = d then others else Memory.insert others a v

/-- Are the indices strictly rising? -/
def Memory.rising {α : Type} : List (Nat × α) → Bool
  | [] => true
  | [_] => true
  | (k, _) :: (l, w) :: m => decide (k < l) && Memory.rising ((l, w) :: m)

/-- The canonical form: rising indices, and no entry holds `d`. Equal storages are equal lists. -/
def Memory.wf {α : Type} [DecidableEq α] (d : α) (m : List (Nat × α)) : Bool :=
  Memory.rising m && m.all (fun e => e.2 ≠ d)

end Sys2Proof.Machine
end

