-- ==== Sys2Proof/Syntax.lean ====
section
/-! DEFINITION. The FLB's commands, one constructor per row of the opcode table (R96), each with its selector and
its operand words (R80). -/

namespace Sys2Proof

/-- One command. A `Sel` argument is the SEL field as it stands in the command word, legal or not; a `Word`
argument is one operand word, in the order of R96. `paramSet`'s duration is present when D = 1 (R84);
`frame` lists its input samples in channel order (R252). -/
inductive Instr where
  | nop
  | configure (wf : Sel) (sr nch mf mdms : Word)
  | release
  | statusRead
  | statusClear (mask : Word)
  | setBypass (b : Word)
  | blockBegin
  | paramSet (key : Sel) (v : Word) (dur : Option Word)
  | paramGet (key : Sel)
  | frame (xs : List Word)
  | dlWrite (c : Sel) (x : Word)
  | dlRead (c : Sel) (d : Word)
  | dlReadAt (c : Sel) (i : Word)
  | dlResize (c : Sel) (n : Word)
  | rpSet (key : Sel) (t d : Word)
  | rpFrameValue (key : Sel)
  | rpGet (key : Sel)
  | lfoSetFreq (f : Word)
  | lfoValue
  | lfoQuadValue
  | lfoValueAndIncrement
  | lfoIncrement
  | lfoSave
  | lfoRestore
deriving DecidableEq, Repr

end Sys2Proof
end

