-- ==== Sys2Proof/WellFormed.lean ====
section
/-! DEFINITION. Which terms of `Instr` are commands of some FLB. A selector out of range is a well-formed command
that is rejected (R90), so the one check is FRAME's length. -/

namespace Sys2Proof

/-- A FRAME has NCH operands, at most NCH_MAX, at most 256 (R9, R80, R271). Every other command's operands are
fixed by its constructor. -/
def Instr.wellFormed : Instr → Bool
  | .nop => true
  | .configure _ _ _ _ _ => true
  | .release => true
  | .statusRead => true
  | .statusClear _ => true
  | .setBypass _ => true
  | .blockBegin => true
  | .paramSet _ _ _ => true
  | .paramGet _ => true
  | .frame xs => decide (xs.length ≤ 256)
  | .dlWrite _ _ => true
  | .dlRead _ _ => true
  | .dlReadAt _ _ => true
  | .dlResize _ _ => true
  | .rpSet _ _ _ => true
  | .rpFrameValue _ => true
  | .rpGet _ => true
  | .lfoSetFreq _ => true
  | .lfoValue => true
  | .lfoQuadValue => true
  | .lfoValueAndIncrement => true
  | .lfoIncrement => true
  | .lfoSave => true
  | .lfoRestore => true

end Sys2Proof
end

