-- ==== Sys2Proof/Decode.lean ====
section
/-! DEFINITION. The command encoding (30_encoding.md): field extraction, the opcode map, the total decoder of R98
and the operand lengths of R80, then the encoder, and the byte transport of R67. -/

namespace Sys2Proof

/-- The 24 mnemonics of R96. -/
inductive Mnemonic where
  | nop | configure | release | statusRead | statusClear | setBypass | blockBegin
  | paramSet | paramGet | frame | dlWrite | dlRead | dlReadAt | dlResize
  | rpSet | rpFrameValue | rpGet
  | lfoSetFreq | lfoValue | lfoQuadValue | lfoValueAndIncrement | lfoIncrement | lfoSave | lfoRestore
deriving DecidableEq, Repr

/-- The OPC column of R96. -/
def Mnemonic.opc : Mnemonic → BitVec 8
  | .nop => 0x00 | .configure => 0x01 | .release => 0x02 | .statusRead => 0x03 | .statusClear => 0x04
  | .setBypass => 0x08 | .blockBegin => 0x09
  | .paramSet => 0x10 | .paramGet => 0x11 | .frame => 0x12
  | .dlWrite => 0x20 | .dlRead => 0x21 | .dlReadAt => 0x22 | .dlResize => 0x23
  | .rpSet => 0x30 | .rpFrameValue => 0x31 | .rpGet => 0x32
  | .lfoSetFreq => 0x40 | .lfoValue => 0x41 | .lfoQuadValue => 0x42 | .lfoValueAndIncrement => 0x43
  | .lfoIncrement => 0x44 | .lfoSave => 0x45 | .lfoRestore => 0x46

/-- The SEL column of R96: does the command use its selector? -/
def Mnemonic.usesSel : Mnemonic → Bool
  | .configure | .paramSet | .paramGet | .dlWrite | .dlRead | .dlReadAt | .dlResize
  | .rpSet | .rpFrameValue | .rpGet => true
  | .nop | .release | .statusRead | .statusClear | .setBypass | .blockBegin | .frame
  | .lfoSetFreq | .lfoValue | .lfoQuadValue | .lfoValueAndIncrement | .lfoIncrement | .lfoSave | .lfoRestore => false

/-- Only PARAM_SET uses the D bit (R81). -/
def Mnemonic.usesD : Mnemonic → Bool
  | .paramSet => true
  | .nop | .configure | .release | .statusRead | .statusClear | .setBypass | .blockBegin | .paramGet | .frame
  | .dlWrite | .dlRead | .dlReadAt | .dlResize | .rpSet | .rpFrameValue | .rpGet
  | .lfoSetFreq | .lfoValue | .lfoQuadValue | .lfoValueAndIncrement | .lfoIncrement | .lfoSave | .lfoRestore => false

/-- The READY column of R96: does the command answer NOT_READY unless LIFE = READY? -/
def Mnemonic.needsReady : Mnemonic → Bool
  | .frame | .dlWrite | .dlRead | .dlReadAt | .dlResize | .lfoSetFreq => true
  | .nop | .configure | .release | .statusRead | .statusClear | .setBypass | .blockBegin | .paramSet | .paramGet
  | .rpSet | .rpFrameValue | .rpGet
  | .lfoValue | .lfoQuadValue | .lfoValueAndIncrement | .lfoIncrement | .lfoSave | .lfoRestore => false

/-- The opcode map read from the opcode; every opcode R96 does not list is reserved (R89). -/
def Mnemonic.ofOpc (b : BitVec 8) : Option Mnemonic :=
  match b.toNat with
  | 0x00 => some .nop
  | 0x01 => some .configure
  | 0x02 => some .release
  | 0x03 => some .statusRead
  | 0x04 => some .statusClear
  | 0x08 => some .setBypass
  | 0x09 => some .blockBegin
  | 0x10 => some .paramSet
  | 0x11 => some .paramGet
  | 0x12 => some .frame
  | 0x20 => some .dlWrite
  | 0x21 => some .dlRead
  | 0x22 => some .dlReadAt
  | 0x23 => some .dlResize
  | 0x30 => some .rpSet
  | 0x31 => some .rpFrameValue
  | 0x32 => some .rpGet
  | 0x40 => some .lfoSetFreq
  | 0x41 => some .lfoValue
  | 0x42 => some .lfoQuadValue
  | 0x43 => some .lfoValueAndIncrement
  | 0x44 => some .lfoIncrement
  | 0x45 => some .lfoSave
  | 0x46 => some .lfoRestore
  | _ => none

/-- The match column of R97, with OPC in bits 31:24. -/
def Mnemonic.matchBits (m : Mnemonic) : Word := m.opc ++ 0#24

/-- The mask column of R97: the bits the pattern fixes. -/
def Mnemonic.maskBits (m : Mnemonic) : Word :=
  if m.usesD then 0xFF007FFF else if m.usesSel then 0xFF00FFFF else 0xFFFFFFFF

/-- OPC, bits 31:24 (R81). -/
def opcField (cw : Word) : BitVec 8 := cw.extractLsb' 24 8

/-- SEL, bits 23:16 (R81). -/
def selField (cw : Word) : Sel := cw.extractLsb' 16 8

/-- D, bit 15 (R81). -/
def dField (cw : Word) : Bool := cw.getLsbD 15

/-- RSV, bits 14:0 (R81). -/
def rsvField (cw : Word) : BitVec 15 := cw.extractLsb' 0 15

/-- Why a command word is ILLEGAL, in the order of R88. -/
inductive DecodeError where
  /-- OPC is not one of the 24 (R88.1). -/
  | unassignedOpcode
  /-- RSV is not 0 (R88.2). -/
  | reservedBits
  /-- D = 1 and the opcode is not PARAM_SET's (R88.3). -/
  | durationBit
  /-- SEL is not 0 and the opcode uses no selector (R88.4). -/
  | unusedSelector
deriving DecidableEq, Repr

/-- A legal command word: its mnemonic, SEL and D (R98). -/
structure Header where
  op : Mnemonic
  sel : Sel
  d : Bool
deriving DecidableEq, Repr

/-- The checks of R98 once the opcode is known. -/
def checkFields (op : Mnemonic) (sel : Sel) (d : Bool) (rsv : BitVec 15) : Except DecodeError Header :=
  if rsv ≠ 0 then .error .reservedBits
  else if d && !op.usesD then .error .durationBit
  else if sel ≠ 0 && !op.usesSel then .error .unusedSelector
  else .ok { op := op, sel := sel, d := d }

/-- R98, total on every 32-bit word. -/
def decodeHeader (cw : Word) : Except DecodeError Header :=
  match Mnemonic.ofOpc (opcField cw) with
  | none => .error .unassignedOpcode
  | some op => checkFields op (selField cw) (dField cw) (rsvField cw)

/-- What the front of the command stream holds. -/
inductive Decoded where
  /-- A whole command, and the words after it. -/
  | command (i : Instr) (rest : List Word)
  /-- An ILLEGAL command word, its OPC field, and the words after that one word (R88). -/
  | illegal (why : DecodeError) (opc : BitVec 8) (rest : List Word)
  /-- No word, or a command whose operand words have not all arrived (R80, R340). -/
  | incomplete
deriving DecidableEq, Repr

/-- A command with no operand word. -/
def takeNone (i : Instr) (ws : List Word) : Decoded := .command i ws

/-- A command with one operand word. -/
def takeOne (mk : Word → Instr) : List Word → Decoded
  | a :: rest => .command (mk a) rest
  | _ => .incomplete

/-- A command with two operand words. -/
def takeTwo (mk : Word → Word → Instr) : List Word → Decoded
  | a :: b :: rest => .command (mk a b) rest
  | _ => .incomplete

/-- A command with four operand words. -/
def takeFour (mk : Word → Word → Word → Word → Instr) : List Word → Decoded
  | a :: b :: c :: e :: rest => .command (mk a b c e) rest
  | _ => .incomplete

/-- A command with a counted list of operand words. -/
def takeList (n : Nat) (mk : List Word → Instr) (ws : List Word) : Decoded :=
  if ws.length < n then .incomplete else .command (mk (ws.take n)) (ws.drop n)

/-- The operand words of R96 and R80, taken from the words after the command word. `nFrame` is FRAME's operand
count, the one length that the command word does not give (R80). -/
def takeOperands (nFrame : Nat) (h : Header) (ws : List Word) : Decoded :=
  match h.op with
  | .nop => takeNone .nop ws
  | .configure => takeFour (.configure h.sel) ws
  | .release => takeNone .release ws
  | .statusRead => takeNone .statusRead ws
  | .statusClear => takeOne .statusClear ws
  | .setBypass => takeOne .setBypass ws
  | .blockBegin => takeNone .blockBegin ws
  | .paramSet =>
    if h.d then takeTwo (fun v dur => .paramSet h.sel v (some dur)) ws
    else takeOne (fun v => .paramSet h.sel v none) ws
  | .paramGet => takeNone (.paramGet h.sel) ws
  | .frame => takeList nFrame .frame ws
  | .dlWrite => takeOne (.dlWrite h.sel) ws
  | .dlRead => takeOne (.dlRead h.sel) ws
  | .dlReadAt => takeOne (.dlReadAt h.sel) ws
  | .dlResize => takeOne (.dlResize h.sel) ws
  | .rpSet => takeTwo (.rpSet h.sel) ws
  | .rpFrameValue => takeNone (.rpFrameValue h.sel) ws
  | .rpGet => takeNone (.rpGet h.sel) ws
  | .lfoSetFreq => takeOne .lfoSetFreq ws
  | .lfoValue => takeNone .lfoValue ws
  | .lfoQuadValue => takeNone .lfoQuadValue ws
  | .lfoValueAndIncrement => takeNone .lfoValueAndIncrement ws
  | .lfoIncrement => takeNone .lfoIncrement ws
  | .lfoSave => takeNone .lfoSave ws
  | .lfoRestore => takeNone .lfoRestore ws

/-- The front of a command stream: one command with all its operands, or one ILLEGAL word, or too few words
(R80, R88, R90). -/
def decode (nFrame : Nat) : List Word → Decoded
  | [] => .incomplete
  | cw :: ws =>
    match decodeHeader cw with
    | .error why => .illegal why (opcField cw) ws
    | .ok h => takeOperands nFrame h ws

/-! ## The encoder -/

/-- The mnemonic of a command (R96). -/
def Instr.mnemonic : Instr → Mnemonic
  | .nop => .nop
  | .configure _ _ _ _ _ => .configure
  | .release => .release
  | .statusRead => .statusRead
  | .statusClear _ => .statusClear
  | .setBypass _ => .setBypass
  | .blockBegin => .blockBegin
  | .paramSet _ _ _ => .paramSet
  | .paramGet _ => .paramGet
  | .frame _ => .frame
  | .dlWrite _ _ => .dlWrite
  | .dlRead _ _ => .dlRead
  | .dlReadAt _ _ => .dlReadAt
  | .dlResize _ _ => .dlResize
  | .rpSet _ _ _ => .rpSet
  | .rpFrameValue _ => .rpFrameValue
  | .rpGet _ => .rpGet
  | .lfoSetFreq _ => .lfoSetFreq
  | .lfoValue => .lfoValue
  | .lfoQuadValue => .lfoQuadValue
  | .lfoValueAndIncrement => .lfoValueAndIncrement
  | .lfoIncrement => .lfoIncrement
  | .lfoSave => .lfoSave
  | .lfoRestore => .lfoRestore

/-- The SEL field of a command; 0 where no selector is used (R81). -/
def Instr.sel : Instr → Sel
  | .nop => 0
  | .configure wf _ _ _ _ => wf
  | .release => 0
  | .statusRead => 0
  | .statusClear _ => 0
  | .setBypass _ => 0
  | .blockBegin => 0
  | .paramSet key _ _ => key
  | .paramGet key => key
  | .frame _ => 0
  | .dlWrite c _ => c
  | .dlRead c _ => c
  | .dlReadAt c _ => c
  | .dlResize c _ => c
  | .rpSet key _ _ => key
  | .rpFrameValue key => key
  | .rpGet key => key
  | .lfoSetFreq _ => 0
  | .lfoValue => 0
  | .lfoQuadValue => 0
  | .lfoValueAndIncrement => 0
  | .lfoIncrement => 0
  | .lfoSave => 0
  | .lfoRestore => 0

/-- The operand words of a command, in the order of R96; PARAM_SET's duration is the second when present (R84). -/
def Instr.operands : Instr → List Word
  | .nop => []
  | .configure _ sr nch mf mdms => [sr, nch, mf, mdms]
  | .release => []
  | .statusRead => []
  | .statusClear mask => [mask]
  | .setBypass b => [b]
  | .blockBegin => []
  | .paramSet _ v none => [v]
  | .paramSet _ v (some dur) => [v, dur]
  | .paramGet _ => []
  | .frame xs => xs
  | .dlWrite _ x => [x]
  | .dlRead _ d => [d]
  | .dlReadAt _ i => [i]
  | .dlResize _ n => [n]
  | .rpSet _ t d => [t, d]
  | .rpFrameValue _ => []
  | .rpGet _ => []
  | .lfoSetFreq f => [f]
  | .lfoValue => []
  | .lfoQuadValue => []
  | .lfoValueAndIncrement => []
  | .lfoIncrement => []
  | .lfoSave => []
  | .lfoRestore => []

/-- The D bit of a command: a PARAM_SET that carries its duration (R81, R84). -/
def Instr.dBit : Instr → Bool
  | .paramSet _ _ dur => dur.isSome
  | .nop | .configure _ _ _ _ _ | .release | .statusRead | .statusClear _ | .setBypass _ | .blockBegin
  | .paramGet _ | .frame _ | .dlWrite _ _ | .dlRead _ _ | .dlReadAt _ _ | .dlResize _ _
  | .rpSet _ _ _ | .rpFrameValue _ | .rpGet _ | .lfoSetFreq _ | .lfoValue | .lfoQuadValue
  | .lfoValueAndIncrement | .lfoIncrement | .lfoSave | .lfoRestore => false

/-- The command word of R81: OPC, SEL, D and a zero RSV. -/
def commandWord (op : Mnemonic) (sel : Sel) (d : Bool) : Word :=
  op.opc ++ sel ++ BitVec.ofBool d ++ 0#15

/-- The words of a command: its command word, then its operands (R80). -/
def encode (i : Instr) : List Word :=
  commandWord i.mnemonic i.sel i.dBit :: i.operands

/-! ## Words from and to a transport (R67) and from the opcode table's numbering -/

/-- The four bytes of a word, least significant byte first (R67). -/
def wordToBytes (w : Word) : List Byte :=
  [w.extractLsb' 0 8, w.extractLsb' 8 8, w.extractLsb' 16 8, w.extractLsb' 24 8]

/-- The words that a little-endian byte stream carries (R67); a last word of fewer than four bytes has not arrived. -/
def wordsOfBytes : List Byte → List Word
  | b0 :: b1 :: b2 :: b3 :: rest => (b3 ++ b2 ++ b1 ++ b0 : BitVec 32) :: wordsOfBytes rest
  | _ => []

/-- The front of a command stream that travels as bytes: total on any bytes. -/
def decodeBytes (nFrame : Nat) (bs : List Byte) : Decoded := decode nFrame (wordsOfBytes bs)

/-- The first `n` 32-bit words of a number, the least significant first. -/
def wordsOfNat : Nat → Nat → List Word
  | 0, _ => []
  | n + 1, w => BitVec.ofNat 32 w :: wordsOfNat n (w / 2 ^ 32)

/-- The longest command is a FRAME of 256 channels: a command word and 256 samples (R9, R80). -/
def longestCommand : Nat := 257

/-- The words of a command whose bits are `w`, every bit from `nbits` on being 0. -/
def tableWords (nbits w : Nat) : List Word := wordsOfNat longestCommand (w % 2 ^ nbits)

/-- The command that the decoder reads from a row's bits. FRAME's operand count is the one it has right after reset,
where LIFE = UNCONFIGURED: 0 (R80). -/
def decodeTableWord (nbits w : Nat) : Option Instr :=
  match decode 0 (tableWords nbits w) with
  | .command i _ => some i
  | .illegal _ _ _ => none
  | .incomplete => none

end Sys2Proof
end

