-- ==== Sys2Proof/Config.lean ====
section
/-! DEFINITION. What one FLB fixes and the spec leaves open (R9), and the free values of what it calls
unspecified (R171). -/

namespace Sys2Proof

/-- A quiet NaN of binary32, whatever its sign and payload: exponent all ones, top fraction bit 1 (R9, R13). -/
structure QuietNaN where
  sign : BitVec 1
  payload : BitVec 22
deriving DecidableEq, Repr, Inhabited

/-- The open parameters of R9. The types hold R9's constraints: `nchMaxPred` is NCH_MAX − 1, so
1 ≤ NCH_MAX ≤ 256, and `capMaxLogPred` is log2 CAP_MAX − 1, so CAP_MAX is a power of two from 2 to 2^24. -/
structure Params where
  nchMaxPred : BitVec 8
  capMaxLogPred : Fin 24
  defaultRampFrames : Word
  nanOut : QuietNaN
deriving DecidableEq, Repr

/-- NCH_MAX of R9. -/
def Params.nchMax (p : Params) : Nat := p.nchMaxPred.toNat + 1

/-- CAP_MAX of R9. -/
def Params.capMax (p : Params) : Nat := 2 ^ (p.capMaxLogPred.val + 1)

/-- The parameters that `State.reset` names. DESIGN CHOICE, unsafe (log entry 2): the spec leaves them open. The
first three are those 95_test_vectors.md takes for its vectors (4, 65536 and 0), the last is 0x7FC00000. -/
def Config.vectorParams : Params :=
  { nchMaxPred := 3, capMaxLogPred := 15, defaultRampFrames := 0, nanOut := { sign := 0, payload := 0 } }

/-- The free values of what R171, R184 and R311 leave unspecified: nothing is known of any of them. `State.free`
counts those drawn (log entry 3). -/
opaque Config.freeWord : Nat → Word

end Sys2Proof
end

