-- ==== Sys2Proof/Machine/Float.lean ====
section
/-! DEFINITION. IEEE 754 binary32 as R12 and R13 give it: the layout of a word, the operations + − × / rounded once
to nearest with ties to even, the comparisons, floor, ceil, nextDown and the conversion F of R11.

Every finite binary32 value is a whole multiple of 2^−149. A value is held here as that whole number, so an exact
result is a number, or a quotient of two numbers, of units of 2^−149. -/

namespace Sys2Proof.Machine

/-- The sign bit, bit 31 (R13). -/
def fsign (w : Word) : Bool := w.msb

/-- The biased exponent, bits 30:23 (R13). -/
def fexp (w : Word) : Nat := (w.extractLsb' 23 8).toNat

/-- The fraction, bits 22:0 (R13). -/
def ffrac (w : Word) : Nat := (w.extractLsb' 0 23).toNat

/-- isNaN of R12. -/
def isNaN (w : Word) : Bool := fexp w == 255 && ffrac w != 0

/-- Is the word an infinity of either sign? -/
def isInf (w : Word) : Bool := fexp w == 255 && ffrac w == 0

/-- Is the word a zero or another finite value? -/
def isFinite (w : Word) : Bool := fexp w != 255

/-- The magnitude in units of 2^−149. Of an infinity it is 2^277, above every finite magnitude. -/
def mag (w : Word) : Nat :=
  if fexp w = 0 then ffrac w else (2 ^ 23 + ffrac w) * 2 ^ (fexp w - 1)

/-- The signed value in units of 2^−149; both zeros have the value 0. -/
def val (w : Word) : Int := if fsign w then -(mag w : Int) else (mag w : Int)

/-- Is the word +0.0 or −0.0? -/
def isZero (w : Word) : Bool := mag w == 0

/-- n / d rounded to a whole number, to nearest, ties to even. -/
def roundDiv (n d : Nat) : Nat :=
  if 2 * (n % d) < d then n / d
  else if d < 2 * (n % d) then n / d + 1
  else if n / d % 2 = 0 then n / d else n / d + 1

/-- The exponent of the spacing of binary32 values about the magnitude q, in units of 2^−149: 0 below 2^24, where
the subnormals and the least normal values lie, then one more for each binade. -/
def spacingExp (q : Nat) : Nat := if q < 2 ^ 24 then 0 else q.log2 - 23

/-- Bits 30:0 of infinity. -/
def infBits : Nat := 0x7F800000

/-- Bits 30:0 of the magnitude n / d (in units of 2^−149), rounded to nearest, ties to even (R12). The rounded
fraction carries into the exponent by itself; what reaches the infinity's bits is an infinity. -/
def roundMag (n d : Nat) : Nat :=
  let sh := spacingExp (n / d)
  min (sh * 2 ^ 23 + roundDiv n (d * 2 ^ sh)) infBits

/-- A word from its sign bit and bits 30:0. -/
def pack (neg : Bool) (bits : Nat) : Word :=
  BitVec.ofNat 32 ((if neg then 2 ^ 31 else 0) + bits)

/-- The exact value v (in units of 2^−149) rounded; an exact 0 is +0.0. -/
def roundInt (v : Int) : Word := pack (decide (v < 0)) (roundMag v.natAbs 1)

/-- A quiet NaN as a word: its sign, an exponent of ones, the quiet bit and its payload (R13). -/
def quietNaNWord (q : QuietNaN) : Word := q.sign ++ 0xFF#8 ++ 1#1 ++ q.payload

/-- The word NAN_OUT of R9. -/
def nanWord (p : Params) : Word := quietNaNWord p.nanOut

/-- −a: the sign bit alone flips (R12). -/
def fneg (a : Word) : Word := a ^^^ 0x80000000#32

/-- a + b of two words that are no NaN. Opposite infinities give NAN_OUT; an exact zero sum is −0.0 only when both
operands are −0.0. -/
def addNumbers (nan a b : Word) : Word :=
  if isInf a then (if isInf b && fsign a != fsign b then nan else a)
  else if isInf b then b
  else if val a + val b = 0 then pack (fsign a && fsign b) 0
  else roundInt (val a + val b)

/-- a + b (R12). `nan` is NAN_OUT, the result where IEEE's is a NaN (R9). -/
def fadd (nan a b : Word) : Word :=
  if isNaN a || isNaN b then nan else addNumbers nan a b

/-- a − b (R12): a + (−b), rounded once. -/
def fsub (nan a b : Word) : Word :=
  if isNaN a || isNaN b then nan else addNumbers nan a (fneg b)

/-- a × b (R12). Infinity times zero gives NAN_OUT. -/
def fmul (nan a b : Word) : Word :=
  if isNaN a || isNaN b then nan
  else if isInf a || isInf b then
    if isZero a || isZero b then nan else pack (fsign a != fsign b) infBits
  else pack (fsign a != fsign b) (roundMag (mag a * mag b) (2 ^ 149))

/-- a / b (R12). 0 / 0 and infinity / infinity give NAN_OUT; another value over zero is an infinity. -/
def fdiv (nan a b : Word) : Word :=
  if isNaN a || isNaN b then nan
  else if isInf a then (if isInf b then nan else pack (fsign a != fsign b) infBits)
  else if isInf b then pack (fsign a != fsign b) 0
  else if isZero b then (if isZero a then nan else pack (fsign a != fsign b) infBits)
  else pack (fsign a != fsign b) (roundMag (mag a * 2 ^ 149) (mag b))

/-- a < b (R12): false on a NaN; −0.0 and +0.0 are equal. -/
def flt (a b : Word) : Bool := !isNaN a && !isNaN b && decide (val a < val b)

/-- a ≤ b (R12). -/
def fle (a b : Word) : Bool := !isNaN a && !isNaN b && decide (val a ≤ val b)

/-- a == b (R12). -/
def feq (a b : Word) : Bool := !isNaN a && !isNaN b && decide (val a = val b)

/-- floor of a finite value (R11): the exact mathematical integer. -/
def ffloor (w : Word) : Int := val w / 2 ^ 149

/-- ceil of a finite value (R11): the exact mathematical integer. -/
def fceil (w : Word) : Int := -(-val w / 2 ^ 149)

/-- F(n) of R11: an unsigned integer rounded to binary32, exact up to 2^24. -/
def ofUnsigned (n : Nat) : Word := pack false (roundMag (n * 2 ^ 149) 1)

/-- nextDown of R12: the greatest binary32 value less than a positive a (R113 uses it on CAP − 1 > 0 alone); below a
zero the least negative value, below a negative value the next one; −infinity and NaNs, which have none, are kept. -/
def nextDown (a : Word) : Word :=
  if isNaN a then a
  else if isZero a then 0x80000001#32
  else if fsign a then (if isInf a then a else a + 1#32)
  else a - 1#32

/-- The binary32 constants that the rules name. -/
def f0 : Word := 0x00000000#32
def fQuarter : Word := 0x3E800000#32
def fHalf : Word := 0x3F000000#32
def fThreeQuarters : Word := 0x3F400000#32
def f1 : Word := 0x3F800000#32
def fMinus1 : Word := 0xBF800000#32
def f2 : Word := 0x40000000#32
def f4 : Word := 0x40800000#32
def f16 : Word := 0x41800000#32
def f100 : Word := 0x42C80000#32
def f1000 : Word := 0x447A0000#32
def fInf : Word := 0x7F800000#32

/-- nextPow2 of R11: the least power of two at or above n; nextPow2(0) = 1. -/
def nextPow2 (n : Nat) : Nat := if n ≤ 1 then 1 else 2 ^ ((n - 1).log2 + 1)

end Sys2Proof.Machine
end

