-- ==== Sys2Proof/Machine/State.lean ====
section
/-! DEFINITION. The state of the FLB (10_state.md), its two interface streams and its reset input, as plain data, and
the state right after reset (R341). -/

namespace Sys2Proof.Machine

/-- The fault reasons of R311, a closed list. No step stops with one: R310 says that the hardware goes on, so a reason
is recorded in `State.faults`, and a free value stands for each value that the spec then leaves unspecified. Safe. -/
inductive Fault where
  /-- LFOSetFrequency stored an INC that is a NaN or outside (−1, 1) (R170, R171). Recorded by LFO_SETFREQ, PARAM_SET
  Rate and CONFIGURE. -/
  | lfoIncrementRange
deriving DecidableEq, Repr

/-- Why a term has no next state. -/
inductive Refusal where
  /-- An arm of exec that has no meaning. No arm answers so in this model. Safe. -/
  | notModelled (mnemonic : String)
  /-- exec was given a FRAME whose operand list is not as long as R80 says in this state. The term is no command of
  the FLB in that state; step takes exactly that number of words and so never meets it. Safe (log entry 8). -/
  | frameOperandCount
deriving DecidableEq, Repr

/-- LIFE (R21). -/
inductive Life where
  | unconfigured
  | ready
deriving DecidableEq, Repr

/-- WF (R23): code 3 is never held. -/
inductive Waveform where
  | sine
  | triangle
  | sawtooth
deriving DecidableEq, Repr

/-- The configuration registers of R23. -/
structure ConfigRegs where
  sr : Word
  nch : Word
  maxFrames : Word
  maxDms : Word
  spm : Word
  wf : Waveform
deriving DecidableEq, Repr

/-- One ramping parameter RP[k] (R25), in internal units. -/
structure Ramp where
  cur : Word
  tgt : Word
  step : Word
  rem : Word
deriving DecidableEq, Repr

/-- The LFO registers of R30. -/
structure Lfo where
  ph : Word
  qp : Word
  inc : Word
  savPh : Word
  savQp : Word
deriving DecidableEq, Repr

/-- One delay line (R33): CAP[c], W[c] and the samples BUF[c][j] that are not +0.0, by sample index. -/
structure DelayLine where
  cap : Word
  w : Word
  buf : List (Nat × Word)
deriving DecidableEq, Repr

/-- The FLB. `par`, `free` are the model's own fields, `rst`, `input`, `output` the unit's interface (log entries 1, 2,
3 and 7); every other field is a register or the storage of 10_state.md. -/
structure State where
  /-- The open parameters of R9; nothing writes them. -/
  par : Params
  /-- The reset input: true while it is asserted (R340). -/
  rst : Bool
  /-- Words delivered and not yet consumed, the oldest first. -/
  input : List Word
  /-- Response words produced, the oldest first (R86). -/
  output : List Word
  /-- LIFE (R21). -/
  life : Life
  /-- SR, NCH, MAXFRAMES, MAXDMS, SPM and WF (R23). -/
  cfg : ConfigRegs
  /-- RP[0] (R25). -/
  depth : Ramp
  /-- RP[2] (R25). -/
  delay : Ramp
  /-- RP[3] (R25). -/
  feedback : Ramp
  /-- RP[4] (R25). -/
  dryMix : Ramp
  /-- RP[5] (R25). -/
  wetMix : Ramp
  /-- RATE (R28). -/
  rate : Word
  /-- NEGFB (R29). -/
  negFb : Bool
  /-- STEREO (R29). -/
  stereo : Bool
  /-- PH, QP, INC, SAVPH and SAVQP (R30). -/
  lfo : Lfo
  /-- BYP_PEND (R32). -/
  bypPend : Bool
  /-- BYP_ACT (R32). -/
  bypAct : Bool
  /-- The delay lines (R33) by channel; a channel not listed is `DelayLine.cleared`. -/
  lines : List (Nat × DelayLine)
  /-- STICKY, bits 5:0 of STATUS (R40, R41). -/
  sticky : BitVec 6
  /-- FAULTS, the spec's model-only set (R42). -/
  faults : List Fault
  /-- How many free values have been drawn: the model's own count. Nothing lowers it, the reset input included, so each
  draw is a new value (log entry 3). -/
  free : Nat
deriving DecidableEq, Repr

/-- What an unlisted sample index reads as: +0.0, the reset and resize contents (R33, R112). -/
def DelayLine.clearSample : Word := 0#32

/-- A delay line as reset and RELEASE leave it (R33, R276). -/
def DelayLine.cleared : DelayLine := { cap := 1, w := 0, buf := [] }

/-- The reset value of a ramping parameter (R25). -/
def Ramp.reset : Ramp := { cur := 0, tgt := 0, step := 0, rem := 0 }

/-- The machine right after reset (R341), for any open parameters. -/
def State.resetWith (p : Params) : State where
  par := p
  rst := false
  input := []
  output := []
  life := .unconfigured
  cfg := { sr := 0, nch := 0, maxFrames := 0, maxDms := 0, spm := 0, wf := .sine }
  depth := Ramp.reset
  delay := Ramp.reset
  feedback := Ramp.reset
  dryMix := Ramp.reset
  wetMix := Ramp.reset
  rate := 0
  negFb := false
  stereo := false
  lfo := { ph := 0, qp := 0x3E800000, inc := 0, savPh := 0, savQp := 0x3E800000 }
  bypPend := false
  bypAct := false
  lines := []
  sticky := 0
  faults := []
  free := 0

/-- The machine right after reset (R341), at the parameters that log entry 2 names. -/
def State.reset : State := State.resetWith Config.vectorParams

end Sys2Proof.Machine
end

