-- ==== Sys2Proof/Machine/Flags.lean ====
section
/-! DEFINITION. The sticky STATUS bits, the model fault set, the rejection codes, the ACK word and the STATUS word
(R40 to R42, R86, R301, R310). -/

namespace Sys2Proof.Machine

/-- The sticky bits of STATUS (R40). -/
inductive StickyBit where
  | illegal | badSel | notReady | cfgInvalid | dlyClamp | lfoRange
deriving DecidableEq, Repr

/-- Each sticky bit's place in STATUS (R40). -/
def StickyBit.index : StickyBit → Nat
  | .illegal => 0
  | .badSel => 1
  | .notReady => 2
  | .cfgInvalid => 3
  | .dlyClamp => 4
  | .lfoRange => 5

/-- A sticky bit as a 6-bit mask. -/
def StickyBit.mask (b : StickyBit) : BitVec 6 := 1#6 <<< b.index

/-- `flag <BIT>` of R14: set one sticky bit. -/
def State.flag (s : State) (b : StickyBit) : State := { s with sticky := s.sticky ||| b.mask }

/-- `fault <Reason>` of R14 and R310: add a reason to the set FAULTS. -/
def State.recordFault (s : State) (r : Fault) : State :=
  { s with faults := if r ∈ s.faults then s.faults else r :: s.faults }

/-- Does the spec leave the LFO and FRAME outputs unspecified in this state (R171, R311)? -/
def State.lfoUnspecified (s : State) : Bool := !s.faults.isEmpty

/-- A free value, a new one at each draw. -/
def State.draw (s : State) : Word × State := (Config.freeWord s.free, { s with free := s.free + 1 })

/-- The rejection codes of R301, OK apart. -/
inductive RejectCode where
  | illegal | badSel | notReady | cfgInvalid
deriving DecidableEq, Repr

/-- The code's number in the ACK word (R86, R301). -/
def RejectCode.number : RejectCode → BitVec 8
  | .illegal => 1
  | .badSel => 2
  | .notReady => 3
  | .cfgInvalid => 4

/-- The sticky bit that records the code (R301). -/
def RejectCode.sticky : RejectCode → StickyBit
  | .illegal => .illegal
  | .badSel => .badSel
  | .notReady => .notReady
  | .cfgInvalid => .cfgInvalid

/-- The ACK word of R86: CODE in bits 7:0, the echoed OPC in bits 15:8, 0 above. -/
def ackWord (code opc : BitVec 8) : Word := 0#16 ++ opc ++ code

/-- Append words to the response stream (R86). -/
def State.emit (s : State) (ws : List Word) : State := { s with output := s.output ++ ws }

/-- A rejection (R303), the one shared way a command fails: the sticky bit of the code, the ACK word, no result word,
and nothing else changes. This is the FLB's whole error entry: it has no trap, saved register or handler (R307). -/
def State.reject (s : State) (code : RejectCode) (opc : BitVec 8) : State :=
  (s.flag code.sticky).emit [ackWord code.number opc]

/-- The response of a command that succeeds: ACK with code OK, then its result words (R86, R87). -/
def State.accept (s : State) (opc : BitVec 8) (results : List Word) : State :=
  s.emit (ackWord 0 opc :: results)

/-- A word with one bit at place `n`. -/
def bitAt (n : Nat) (b : Bool) : Word := if b then 1#32 <<< n else 0#32

/-- The code of a waveform (R94). -/
def Waveform.code : Waveform → BitVec 2
  | .sine => 0
  | .triangle => 1
  | .sawtooth => 2

/-- Is the ramp in state RAMPING (R26)? -/
def Ramp.ramping (r : Ramp) : Bool := r.rem != 0

/-- The STATUS word of R40, computed as R280 gives it; reserved bits read 0. -/
def State.statusWord (s : State) : Word :=
  s.sticky.setWidth 32
  ||| bitAt 8 (s.life == .ready) ||| bitAt 9 s.bypAct ||| bitAt 10 s.bypPend ||| bitAt 11 s.negFb
  ||| bitAt 12 s.stereo
  ||| bitAt 16 s.depth.ramping ||| bitAt 18 s.delay.ramping ||| bitAt 19 s.feedback.ramping
  ||| bitAt 20 s.dryMix.ramping ||| bitAt 21 s.wetMix.ramping
  ||| (s.cfg.wf.code.setWidth 32 <<< 24)

/-- STATUS_CLEAR's effect (R282): the sticky bits whose mask bit is 1 become 0; mask bits 31:6 are ignored. -/
def State.clearSticky (s : State) (mask : Word) : State :=
  { s with sticky := s.sticky &&& ~~~(mask.setWidth 6) }

end Sys2Proof.Machine
end

