-- ==== Sys2Proof/Machine/Operands.lean ====
section
/-! DEFINITION. The selector spaces of R92 to R94, the duration of R84, FRAME's operand count of R80, and the
lifecycle and channel checks in the priority of R305. -/

namespace Sys2Proof.Machine

/-- The five keys that have a ramp, the set RAMPED of R25. -/
inductive RampKey where
  | depth | delay | feedback | dryMix | wetMix
deriving DecidableEq, Repr

/-- The eight parameter keys of R92. -/
inductive ParamKey where
  | ramped (r : RampKey)
  | rate
  | negativeFeedback
  | stereoPhaseOffset
deriving DecidableEq, Repr

/-- The key map of R92; 8 to 255 are no key. -/
def ParamKey.ofSel (k : Sel) : Option ParamKey :=
  match k.toNat with
  | 0 => some (.ramped .depth)
  | 1 => some .rate
  | 2 => some (.ramped .delay)
  | 3 => some (.ramped .feedback)
  | 4 => some (.ramped .dryMix)
  | 5 => some (.ramped .wetMix)
  | 6 => some .negativeFeedback
  | 7 => some .stereoPhaseOffset
  | _ => none

/-- The keys of the RP_* commands: those in RAMPED (R92). -/
def RampKey.ofSel (k : Sel) : Option RampKey :=
  match ParamKey.ofSel k with
  | some (.ramped r) => some r
  | some .rate => none
  | some .negativeFeedback => none
  | some .stereoPhaseOffset => none
  | none => none

/-- Is the key a percentage key (R231)? Delay is in milliseconds on both sides (R233). -/
def RampKey.isPercent : RampKey → Bool
  | .depth => true
  | .delay => false
  | .feedback => true
  | .dryMix => true
  | .wetMix => true

/-- The waveform map of R94. -/
def Waveform.ofSel (k : Sel) : Option Waveform :=
  match k.toNat with
  | 0 => some .sine
  | 1 => some .triangle
  | 2 => some .sawtooth
  | _ => none

/-- The ramp duration of a PARAM_SET: operand 2 when D = 1, else DEFAULT_RAMP_FRAMES (R84). -/
def State.duration (s : State) (dur : Option Word) : Word := dur.getD s.par.defaultRampFrames

/-- FRAME's operand count: NCH when LIFE = READY, else 0 (R80). -/
def State.frameOperands (s : State) : Nat :=
  if s.life = .ready then s.cfg.nch.toNat else 0

/-- A command that succeeds: its response, over the state its effects left. -/
def finish (m : Mnemonic) (results : List Word) (s : State) : Host.Outcome State Fault Refusal :=
  .next (s.accept m.opc results)

/-- A command that is rejected (R303). -/
def rejected (code : RejectCode) (m : Mnemonic) (s : State) : Host.Outcome State Fault Refusal :=
  .next (s.reject code m.opc)

/-- The lifecycle check: NOT_READY unless LIFE = READY (R96, R305). -/
def needReady (m : Mnemonic) (s : State) (k : Host.Outcome State Fault Refusal) :
    Host.Outcome State Fault Refusal :=
  if s.life = .ready then k else rejected .notReady m s

/-- The channel check: BAD_SEL unless c < NCH (R93, R305). -/
def needChannel (m : Mnemonic) (c : Sel) (s : State) (k : Host.Outcome State Fault Refusal) :
    Host.Outcome State Fault Refusal :=
  if c.toNat < s.cfg.nch.toNat then k else rejected .badSel m s

end Sys2Proof.Machine
end

