-- ==== Sys2Proof/Machine/Ops.lean ====
section
/-! DEFINITION. The primitives that the commands share: the delay line (R110 to R113), the ramping parameter (R141 to
R145), the LFO (R170 to R183), the configuration checks and commit (R271, R272), release (R276), and the front of the
command stream. A command's failure is `State.reject` in Flags.lean. -/

namespace Sys2Proof.Machine

/-- NAN_OUT, the result of an operation whose IEEE result is a NaN (R9). -/
def State.nan (s : State) : Word := nanWord s.par

/-! ## Delay line -/

/-- The index mask CAP − 1 applied to a u32 (R110, R111). -/
def DelayLine.index (l : DelayLine) (i : Word) : Nat := (i &&& (l.cap - 1)).toNat

/-- BUF[c][j] (R60). -/
def DelayLine.sample (l : DelayLine) (j : Nat) : Word := Memory.get DelayLine.clearSample l.buf j

/-- DLWrite (R110), on the line: store bit for bit at the cursor, advance the cursor. -/
def DelayLine.write (l : DelayLine) (x : Word) : DelayLine :=
  { l with
    w := (l.w + 1) &&& (l.cap - 1)
    buf := Memory.set DelayLine.clearSample l.buf l.w.toNat x }

/-- DLReadAt (R111), on the line: index 0 is the newest sample. -/
def DelayLine.readAt (l : DelayLine) (i : Word) : Word := l.sample (l.index (l.w - 1 - i))

/-- DLResize (R112): the line of capacity nextPow2(n), cleared, its cursor at 0. -/
def DelayLine.resized (n : Nat) : DelayLine :=
  { cap := BitVec.ofNat 32 (nextPow2 n), w := 0, buf := [] }

/-- F(CAP − 1), the end of the legal range of a read (R113). -/
def DelayLine.hi (l : DelayLine) : Word := ofUnsigned (l.cap - 1).toNat

/-- The clamp of R113: the delay that is read, and whether it was clamped. -/
def DelayLine.clampDelay (l : DelayLine) (d : Word) : Word × Bool :=
  if isNaN d || flt d f0 then (f0, true)
  else if fle l.hi d then (if flt f0 l.hi then nextDown l.hi else f0, true)
  else (d, false)

/-- The interpolation of R113 at a delay in the legal range. -/
def DelayLine.interpolate (nan : Word) (l : DelayLine) (d : Word) : Word :=
  let i := (ffloor d).toNat
  let frac := fsub nan d (ofUnsigned i)
  let newer := l.readAt (BitVec.ofNat 32 i)
  let older := l.readAt (BitVec.ofNat 32 (i + 1))
  fadd nan (fmul nan frac older) (fmul nan (fsub nan f1 frac) newer)

/-- The delay line with index c (R33). -/
def State.line (s : State) (c : Nat) : DelayLine := Memory.get DelayLine.cleared s.lines c

/-- Replace the delay line with index c. -/
def State.setLine (s : State) (c : Nat) (l : DelayLine) : State :=
  { s with lines := Memory.set DelayLine.cleared s.lines c l }

/-- DLWrite(c, x) (R110). -/
def State.dlWrite (s : State) (c : Nat) (x : Word) : State := s.setLine c ((s.line c).write x)

/-- DLRead(c, d) (R113): the value, and the state with DLY_CLAMP set if the delay was clamped. -/
def State.dlRead (s : State) (c : Nat) (d : Word) : Word × State :=
  let l := s.line c
  let cd := l.clampDelay d
  (l.interpolate s.nan cd.1, if cd.2 then s.flag .dlyClamp else s)

/-- DLResize(c, n) (R112). -/
def State.dlResize (s : State) (c : Nat) (n : Nat) : State := s.setLine c (DelayLine.resized n)

/-- DLResize(c, n) for every c below `count` (R272 step 2). -/
def State.resizeBelow (s : State) (n : Nat) : Nat → State
  | 0 => s
  | count + 1 => (s.resizeBelow n count).dlResize count n

/-! ## Ramping parameter -/

/-- RP[k] (R25). -/
def State.ramp (s : State) : RampKey → Ramp
  | .depth => s.depth
  | .delay => s.delay
  | .feedback => s.feedback
  | .dryMix => s.dryMix
  | .wetMix => s.wetMix

/-- Replace RP[k]. -/
def State.setRamp (s : State) (k : RampKey) (r : Ramp) : State :=
  match k with
  | .depth => { s with depth := r }
  | .delay => { s with delay := r }
  | .feedback => { s with feedback := r }
  | .dryMix => { s with dryMix := r }
  | .wetMix => { s with wetMix := r }

/-- RPSet (R141), on the ramp: target t, duration d in frames. -/
def Ramp.set (nan : Word) (r : Ramp) (t d : Word) : Ramp :=
  if d = 0 then { cur := t, tgt := t, step := f0, rem := 0 }
  else { cur := r.cur, tgt := t, step := fdiv nan (fsub nan t r.cur) (ofUnsigned d.toNat), rem := d }

/-- RPFrameValue (R144), on the ramp: the ramp one frame later; its `cur` is the value returned. -/
def Ramp.advance (nan : Word) (r : Ramp) : Ramp :=
  if r.rem = 0 then r
  else if r.rem - 1 = 0 then { r with cur := r.tgt, rem := 0 }
  else { r with cur := fadd nan r.cur r.step, rem := r.rem - 1 }

/-- RPGet (R145): the settled value. -/
def Ramp.settled (r : Ramp) : Word := if r.rem = 0 then r.cur else r.tgt

/-- RPSet(k, t, d) (R141). -/
def State.rpSet (s : State) (k : RampKey) (t d : Word) : State := s.setRamp k ((s.ramp k).set s.nan t d)

/-- RPFrameValue(k) (R144), as a state; the value returned is then `(s.rpAdvance k).ramp k` at `cur`. -/
def State.rpAdvance (s : State) (k : RampKey) : State := s.setRamp k ((s.ramp k).advance s.nan)

/-! ## LFO -/

/-- The SINE waveform (R181). -/
def waveSine (nan p : Word) : Word :=
  if flt p fHalf then fmul nan f16 (fmul nan p (fsub nan fHalf p))
  else
    let q := fsub nan p fHalf
    fneg (fmul nan f16 (fmul nan q (fsub nan fHalf q)))

/-- The TRIANGLE waveform (R182). -/
def waveTriangle (nan p : Word) : Word :=
  let x := fmul nan f4 p
  if flt p fQuarter then x
  else if flt p fThreeQuarters then fsub nan f2 x
  else fsub nan x f4

/-- The SAWTOOTH waveform (R183). -/
def waveSawtooth (nan p : Word) : Word := fsub nan (fmul nan f2 p) f1

/-- Wave(p) of R180 for p in [0, 1). -/
def wave (nan : Word) (wf : Waveform) (p : Word) : Word :=
  match wf with
  | .sine => waveSine nan p
  | .triangle => waveTriangle nan p
  | .sawtooth => waveSawtooth nan p

/-- Is p in [0, 1)? Outside, Wave is unspecified (R184). -/
def inUnit (p : Word) : Bool := fle f0 p && flt p f1

/-- Wave at a phase, as LFOValue and LFOQuadValue return it (R176). Where R171 or R184 leaves it unspecified, it is a
free value; nothing but the count of free values changes. -/
def State.lfoOut (s : State) (p : Word) : Word × State :=
  if !s.lfoUnspecified && inUnit p then (wave s.nan s.cfg.wf p, s) else s.draw

/-- LFOAdvance (R174). -/
def lfoAdvance (nan inc x : Word) : Word :=
  let y := fadd nan x inc
  let z :=
    if flt f0 inc && fle f1 y then fsub nan y f1
    else if flt inc f0 && flt y f0 then fadd nan y f1
    else y
  if feq z f1 then f0 else z

/-- LFOIncrement (R175): both phases in one step. Where R311 leaves PH and QP unspecified after an advance, each is a
free value. -/
def State.lfoIncrement (s : State) : State :=
  if s.lfoUnspecified then
    { s with
      lfo := { s.lfo with ph := Config.freeWord s.free, qp := Config.freeWord (s.free + 1) }
      free := s.free + 2 }
  else
    { s with
      lfo := { s.lfo with
        ph := lfoAdvance s.nan s.lfo.inc s.lfo.ph
        qp := lfoAdvance s.nan s.lfo.inc s.lfo.qp } }

/-- The increments that R170 does not take: a NaN, or a magnitude of 1 or more. -/
def incOutOfRange (inc : Word) : Bool := isNaN inc || fle f1 inc || fle inc fMinus1

/-- Store an increment, and flag and record one out of range (R170, R171). -/
def State.setInc (s : State) (inc : Word) : State :=
  let s1 : State := { s with lfo := { s.lfo with inc := inc } }
  if incOutOfRange inc then (s1.flag .lfoRange).recordFault .lfoIncrementRange else s1

/-- LFOSetFrequency(f) (R170). -/
def State.lfoSetFrequency (s : State) (f : Word) : State := s.setInc (fdiv s.nan f s.cfg.sr)

/-- LFOSave (R178). -/
def State.lfoSave (s : State) : State :=
  { s with lfo := { s.lfo with savPh := s.lfo.ph, savQp := s.lfo.qp } }

/-- LFORestore (R178). -/
def State.lfoRestore (s : State) : State :=
  { s with lfo := { s.lfo with ph := s.lfo.savPh, qp := s.lfo.savQp } }

/-! ## Parameter boundary -/

/-- The value a ramped key stores for a boundary value (R232, R233). -/
def toInternal (nan : Word) (k : RampKey) (v : Word) : Word := if k.isPercent then fdiv nan v f100 else v

/-- The boundary value of a ramped key's settled value (R232, R233). -/
def toBoundary (nan : Word) (k : RampKey) (v : Word) : Word := if k.isPercent then fmul nan v f100 else v

/-- The threshold of a boolean key (R234). -/
def toBoolean (v : Word) : Bool := flt f0 v

/-- The boundary value of a boolean key (R234). -/
def ofBoolean (b : Bool) : Word := if b then f1 else f0

/-- PARAM_SET's effect on a key (R250), the duration already assembled. -/
def State.paramSet (s : State) (k : ParamKey) (v d : Word) : State :=
  match k with
  | .ramped r => s.rpSet r (toInternal s.nan r v) d
  | .rate =>
    let s1 : State := { s with rate := v }
    if s.life = .ready then s1.lfoSetFrequency v else s1
  | .negativeFeedback => { s with negFb := toBoolean v }
  | .stereoPhaseOffset => { s with stereo := toBoolean v }

/-- PARAM_GET's value of a key (R251). -/
def State.paramGet (s : State) (k : ParamKey) : Word :=
  match k with
  | .ramped r => toBoundary s.nan r (s.ramp r).settled
  | .rate => s.rate
  | .negativeFeedback => ofBoolean s.negFb
  | .stereoPhaseOffset => ofBoolean s.stereo

/-! ## Configuration -/

/-- A sample rate that R271 check 1 takes. -/
def sampleRateOk (sr : Word) : Bool := !(isNaN sr || fle sr f0 || feq sr fInf)

/-- A maximum delay that R271 check 4 takes. -/
def maxDelayOk (mdms : Word) : Bool := !(isNaN mdms || flt mdms f0 || feq mdms fInf)

/-- SPM, samples per millisecond (R23, R272). -/
def samplesPerMs (nan sr : Word) : Word := fdiv nan sr f1000

/-- The maximum delay in samples, x of R271 check 5. -/
def maxDelaySamples (nan sr mdms : Word) : Word := fmul nan mdms (samplesPerMs nan sr)

/-- The size n that CONFIGURE asks of every delay line (R245, R271 check 6). -/
def kernelSize (nan sr mdms : Word) : Nat := (fceil (maxDelaySamples nan sr mdms)).toNat + 2

/-- The six checks of R271. -/
def configurationOk (p : Params) (sr nch mf mdms : Word) : Bool :=
  sampleRateOk sr
  && (nch != 0 && decide (nch.toNat ≤ p.nchMax))
  && mf != 0
  && maxDelayOk mdms
  && !feq (maxDelaySamples (nanWord p) sr mdms) fInf
  && decide (nextPow2 (kernelSize (nanWord p) sr mdms) ≤ p.capMax)

/-- The registers that a commit writes (R272 step 1). -/
def configured (nan : Word) (wf : Waveform) (sr nch mf mdms : Word) : ConfigRegs :=
  { sr := sr, nch := nch, maxFrames := mf, maxDms := mdms, spm := samplesPerMs nan sr, wf := wf }

/-- The commit of R272. -/
def State.commitConfig (s : State) (wf : Waveform) (sr nch mf mdms : Word) : State :=
  let s1 : State := { s with cfg := configured s.nan wf sr nch mf mdms }
  let s2 := s1.resizeBelow (kernelSize s.nan sr mdms) nch.toNat
  let s3 : State := { s2 with life := .ready }
  s3.lfoSetFrequency s3.rate

/-- RELEASE's effect (R276): UNCONFIGURED, and every delay line back to CAP 1, W 0 and +0.0. -/
def State.releaseLines (s : State) : State := { s with life := .unconfigured, lines := [] }

/-! ## The command stream -/

/-- What the front of the stream holds in this state (R80, R98). -/
def State.fetch (s : State) : Decoded := decode s.frameOperands s.input

/-- Consume words from the front of the stream. -/
def State.consumed (s : State) (rest : List Word) : State := { s with input := rest }

/-- An ILLEGAL command word (R88, R303): it alone is consumed, and OPC is echoed. -/
def State.rejectIllegal (s : State) (opc : BitVec 8) (rest : List Word) : State :=
  (s.consumed rest).reject .illegal opc

/-- The FLB between commands, with too few words for the next: it keeps all its state (R325). -/
def State.idle (s : State) : State := s

end Sys2Proof.Machine
end

