-- ==== Sys2Proof/Machine/ConfigStatus.lean ====
section
/-! DEFINITION. The meanings of NOP, CONFIGURE, RELEASE, STATUS_READ and STATUS_CLEAR
(45_configuration_and_status.md). -/

namespace Sys2Proof.Machine

/-- NOP (R284): no operation, ACK OK. -/
def execNop (s : State) : Host.Outcome State Fault Refusal := finish .nop [] s

/-- CONFIGURE (R270): the waveform code, the checks of R271, then the commit of R272. -/
def execConfigure (wf : Sel) (sr nch mf mdms : Word) (s : State) : Host.Outcome State Fault Refusal :=
  match Waveform.ofSel wf with
  | none => rejected .badSel .configure s
  | some w =>
    if configurationOk s.par sr nch mf mdms then finish .configure [] (s.commitConfig w sr nch mf mdms)
    else rejected .cfgInvalid .configure s

/-- RELEASE (R276). -/
def execRelease (s : State) : Host.Outcome State Fault Refusal := finish .release [] s.releaseLines

/-- STATUS_READ (R280): the STATUS word; reading clears nothing. -/
def execStatusRead (s : State) : Host.Outcome State Fault Refusal := finish .statusRead [s.statusWord] s

/-- STATUS_CLEAR (R282). -/
def execStatusClear (mask : Word) (s : State) : Host.Outcome State Fault Refusal :=
  finish .statusClear [] (s.clearSticky mask)

end Sys2Proof.Machine
end

