-- ==== Sys2Proof/Machine/Delay.lean ====
section
/-! DEFINITION. The meanings of DL_WRITE, DL_READ, DL_READAT and DL_RESIZE (40_delay_line.md). -/

namespace Sys2Proof.Machine

/-- DL_WRITE (R120). -/
def execDlWrite (c : Sel) (x : Word) (s : State) : Host.Outcome State Fault Refusal :=
  needReady .dlWrite s <| needChannel .dlWrite c s <| finish .dlWrite [] (s.dlWrite c.toNat x)

/-- DL_READ (R121). -/
def execDlRead (c : Sel) (d : Word) (s : State) : Host.Outcome State Fault Refusal :=
  needReady .dlRead s <| needChannel .dlRead c s <|
    finish .dlRead [(s.dlRead c.toNat d).1] (s.dlRead c.toNat d).2

/-- DL_READAT (R122). -/
def execDlReadAt (c : Sel) (i : Word) (s : State) : Host.Outcome State Fault Refusal :=
  needReady .dlReadAt s <| needChannel .dlReadAt c s <|
    finish .dlReadAt [(s.line c.toNat).readAt i] s

/-- DL_RESIZE (R123). -/
def execDlResize (c : Sel) (n : Word) (s : State) : Host.Outcome State Fault Refusal :=
  needReady .dlResize s <| needChannel .dlResize c s <|
    if s.par.capMax < nextPow2 n.toNat then rejected .cfgInvalid .dlResize s
    else finish .dlResize [] (s.dlResize c.toNat n.toNat)

end Sys2Proof.Machine
end

