-- ==== Sys2Proof/Machine/Kernel.lean ====
section
/-! DEFINITION. The meanings of PARAM_SET, PARAM_GET and FRAME, and the per-frame algorithm of R252
(44_flange_kernel.md). -/

namespace Sys2Proof.Machine

/-- PARAM_SET (R250). -/
def execParamSet (key : Sel) (v : Word) (dur : Option Word) (s : State) : Host.Outcome State Fault Refusal :=
  match ParamKey.ofSel key with
  | none => rejected .badSel .paramSet s
  | some k => finish .paramSet [] (s.paramSet k v (s.duration dur))

/-- PARAM_GET (R251). -/
def execParamGet (key : Sel) (s : State) : Host.Outcome State Fault Refusal :=
  match ParamKey.ofSel key with
  | none => rejected .badSel .paramGet s
  | some k => finish .paramGet [s.paramGet k] s

/-- What every channel of one frame reads (R252, R243): the ramped values and both LFO outputs. -/
structure FrameInputs where
  delay : Word
  span : Word
  sfb : Word
  wet : Word
  dry : Word
  vI : Word
  vQ : Word
deriving DecidableEq, Repr

/-- The five RPFrameValue calls of a frame (R252). -/
def State.advanceRamps (s : State) : State :=
  ((((s.rpAdvance .depth).rpAdvance .delay).rpAdvance .feedback).rpAdvance .wetMix).rpAdvance .dryMix

/-- The far end of the sweep less its near end: depth × MAXDMS − delay (R242). -/
def sweepSpan (nan depth maxDms delay : Word) : Word := fsub nan (fmul nan depth maxDms) delay

/-- The signed feedback (R246). -/
def signedFeedback (negFb : Bool) (feedback : Word) : Word := if negFb then fneg feedback else feedback

/-- What the channels of a frame read, from the state whose ramps have advanced and the two LFO outputs. -/
def State.frameInputs (s : State) (vI vQ : Word) : FrameInputs :=
  { delay := s.delay.cur
    span := sweepSpan s.nan s.depth.cur s.cfg.maxDms s.delay.cur
    sfb := signedFeedback s.negFb s.feedback.cur
    wet := s.wetMix.cur
    dry := s.dryMix.cur
    vI := vI
    vQ := vQ }

/-- The LFO output of channel c: the quadrature one on an odd channel when STEREO = 1 (R241). -/
def channelLfo (stereo : Bool) (g : FrameInputs) (c : Nat) : Word :=
  if c % 2 = 1 ∧ stereo = true then g.vQ else g.vI

/-- The delay position in samples for an LFO output u (R244). -/
def delayPosition (nan spm : Word) (g : FrameInputs) (u : Word) : Word :=
  fmul nan (fadd nan g.delay (fmul nan g.span (fmul nan (fadd nan u f1) fHalf))) spm

/-- The sample written back into the line (R246). -/
def feedbackSample (nan : Word) (g : FrameInputs) (x delayed : Word) : Word :=
  fadd nan x (fmul nan g.sfb delayed)

/-- The output sample (R246). -/
def mixSample (nan : Word) (g : FrameInputs) (x delayed : Word) : Word :=
  fadd nan (fmul nan g.wet delayed) (fmul nan g.dry x)

/-- One channel of a frame (R252): read at the position, write back, mix. After a model fault R311 leaves the output
unspecified, so it is a free value; the line is written from the free LFO output (log entry 4). -/
def State.frameChannel (s : State) (g : FrameInputs) (c : Nat) (x : Word) : Word × State :=
  let pos := delayPosition s.nan s.cfg.spm g (channelLfo s.stereo g c)
  let r := s.dlRead c pos
  let s1 := r.2.dlWrite c (feedbackSample s.nan g x r.1)
  if s.lfoUnspecified then s1.draw else (mixSample s.nan g x r.1, s1)

/-- The channel loop of R252, from channel c on: the output samples in channel order, and the state after. -/
def State.frameLoop (g : FrameInputs) : Nat → List Word → State → List Word × State
  | _, [], s => ([], s)
  | c, x :: xs, s =>
    let r := s.frameChannel g c x
    let t := State.frameLoop g (c + 1) xs r.2
    (r.1 :: t.1, t.2)

/-- A frame that is not bypassed (R252): the ramps, both LFO outputs, the channels, then one LFO advance (R243). -/
def State.renderFrame (s : State) (xs : List Word) : List Word × State :=
  let s1 := s.advanceRamps
  let i := s1.lfoOut s1.lfo.ph
  let q := i.2.lfoOut i.2.lfo.qp
  let r := State.frameLoop (q.2.frameInputs i.1 q.1) 0 xs q.2
  (r.1, r.2.lfoIncrement)

/-- FRAME (R252). With BYP_ACT = 1 the inputs are the outputs, bit for bit, and no register changes (R210 to R212).
A term with another number of operands than R80 gives is no command in this state. -/
def execFrame (xs : List Word) (s : State) : Host.Outcome State Fault Refusal :=
  if xs.length ≠ s.frameOperands then .refused .frameOperandCount
  else needReady .frame s <|
    if s.bypAct then finish .frame xs s
    else finish .frame (s.renderFrame xs).1 (s.renderFrame xs).2

end Sys2Proof.Machine
end

