-- ==== Sys2Proof/Machine/LfoCommands.lean ====
section
/-! DEFINITION. The meanings of the seven LFO commands (42_lfo.md). -/

namespace Sys2Proof.Machine

/-- LFO_SETFREQ (R190): INC alone, not RATE. -/
def execLfoSetFreq (f : Word) (s : State) : Host.Outcome State Fault Refusal :=
  needReady .lfoSetFreq s <| finish .lfoSetFreq [] (s.lfoSetFrequency f)

/-- LFO_VALUE (R191): Wave(PH), a peek. -/
def execLfoValue (s : State) : Host.Outcome State Fault Refusal :=
  finish .lfoValue [(s.lfoOut s.lfo.ph).1] (s.lfoOut s.lfo.ph).2

/-- LFO_QUADVALUE (R192): Wave(QP), a peek. -/
def execLfoQuadValue (s : State) : Host.Outcome State Fault Refusal :=
  finish .lfoQuadValue [(s.lfoOut s.lfo.qp).1] (s.lfoOut s.lfo.qp).2

/-- LFO_VALUE_AND_INCREMENT (R193): Wave(PH) as it stood, then both phases advance. -/
def execLfoValueAndIncrement (s : State) : Host.Outcome State Fault Refusal :=
  finish .lfoValueAndIncrement [(s.lfoOut s.lfo.ph).1] (s.lfoOut s.lfo.ph).2.lfoIncrement

/-- LFO_INCREMENT (R194). -/
def execLfoIncrement (s : State) : Host.Outcome State Fault Refusal :=
  finish .lfoIncrement [] s.lfoIncrement

/-- LFO_SAVE (R195). -/
def execLfoSave (s : State) : Host.Outcome State Fault Refusal := finish .lfoSave [] s.lfoSave

/-- LFO_RESTORE (R196). -/
def execLfoRestore (s : State) : Host.Outcome State Fault Refusal := finish .lfoRestore [] s.lfoRestore

end Sys2Proof.Machine
end

