-- ==== Sys2Proof/Machine/RampCommands.lean ====
section
/-! DEFINITION. The meanings of RP_SET, RP_FRAMEVALUE and RP_GET (41_ramping_parameter.md). -/

namespace Sys2Proof.Machine

/-- RP_SET (R150): target and duration in internal units, no scaling. -/
def execRpSet (key : Sel) (t d : Word) (s : State) : Host.Outcome State Fault Refusal :=
  match RampKey.ofSel key with
  | none => rejected .badSel .rpSet s
  | some k => finish .rpSet [] (s.rpSet k t d)

/-- RP_FRAMEVALUE (R151): advance one frame and return the value. -/
def execRpFrameValue (key : Sel) (s : State) : Host.Outcome State Fault Refusal :=
  match RampKey.ofSel key with
  | none => rejected .badSel .rpFrameValue s
  | some k => finish .rpFrameValue [((s.ramp k).advance s.nan).cur] (s.rpAdvance k)

/-- RP_GET (R152): the settled value. -/
def execRpGet (key : Sel) (s : State) : Host.Outcome State Fault Refusal :=
  match RampKey.ofSel key with
  | none => rejected .badSel .rpGet s
  | some k => finish .rpGet [(s.ramp k).settled] s

end Sys2Proof.Machine
end

