-- ==== Sys2Proof/Machine/RenderControl.lean ====
section
/-! DEFINITION. The meanings of SET_BYPASS and BLOCK_BEGIN (43_render_control.md). -/

namespace Sys2Proof.Machine

/-- SET_BYPASS (R215): bit 0 of the operand into BYP_PEND; bits 31:1 are ignored. -/
def execSetBypass (b : Word) (s : State) : Host.Outcome State Fault Refusal :=
  finish .setBypass [] { s with bypPend := b.getLsbD 0 }

/-- BLOCK_BEGIN (R216): BYP_PEND into BYP_ACT. -/
def execBlockBegin (s : State) : Host.Outcome State Fault Refusal :=
  finish .blockBegin [] { s with bypAct := s.bypPend }

end Sys2Proof.Machine
end

