-- ==== Sys2Proof/Machine/Dispatch.lean ====
section
/-! DEFINITION. The meaning of each command, one arm per constructor of Instr. -/

namespace Sys2Proof.Machine

def exec (i : Instr) (s : State) : Host.Outcome State Fault Refusal :=
  match i with
  | .nop => Sys2Proof.Machine.execNop s
  | .configure wf sr nch mf mdms => Sys2Proof.Machine.execConfigure wf sr nch mf mdms s
  | .release => Sys2Proof.Machine.execRelease s
  | .statusRead => Sys2Proof.Machine.execStatusRead s
  | .statusClear mask => Sys2Proof.Machine.execStatusClear mask s
  | .setBypass b => Sys2Proof.Machine.execSetBypass b s
  | .blockBegin => Sys2Proof.Machine.execBlockBegin s
  | .paramSet key v dur => Sys2Proof.Machine.execParamSet key v dur s
  | .paramGet key => Sys2Proof.Machine.execParamGet key s
  | .frame xs => Sys2Proof.Machine.execFrame xs s
  | .dlWrite c x => Sys2Proof.Machine.execDlWrite c x s
  | .dlRead c d => Sys2Proof.Machine.execDlRead c d s
  | .dlReadAt c j => Sys2Proof.Machine.execDlReadAt c j s
  | .dlResize c n => Sys2Proof.Machine.execDlResize c n s
  | .rpSet key t d => Sys2Proof.Machine.execRpSet key t d s
  | .rpFrameValue key => Sys2Proof.Machine.execRpFrameValue key s
  | .rpGet key => Sys2Proof.Machine.execRpGet key s
  | .lfoSetFreq f => Sys2Proof.Machine.execLfoSetFreq f s
  | .lfoValue => Sys2Proof.Machine.execLfoValue s
  | .lfoQuadValue => Sys2Proof.Machine.execLfoQuadValue s
  | .lfoValueAndIncrement => Sys2Proof.Machine.execLfoValueAndIncrement s
  | .lfoIncrement => Sys2Proof.Machine.execLfoIncrement s
  | .lfoSave => Sys2Proof.Machine.execLfoSave s
  | .lfoRestore => Sys2Proof.Machine.execLfoRestore s

end Sys2Proof.Machine
end

