-- ==== Sys2Proof/Machine/Step.lean ====
section
/-! DEFINITION. One step of the FLB: it executes the command at the front of the stream, atomically (R69, R71). -/

namespace Sys2Proof.Machine

/-- One step. While reset is asserted no command is accepted (R340). A whole command is consumed and executed (R90); an
ILLEGAL word is consumed alone and answered (R88); with too few words the FLB waits and keeps its state (R325). -/
def step (s : State) : Host.Outcome State Fault Refusal :=
  if s.rst then .next s.idle
  else
    match s.fetch with
    | .command i rest => exec i (s.consumed rest)
    | .illegal _ opc rest => .next (s.rejectIllegal opc rest)
    | .incomplete => .next s.idle

/-- The state with a command's words, numbered as the opcode table numbers its bits, at the front of the stream and zero
words after them up to the longest command, and the reset input released (log entry 9). -/
def State.withFetchWord (s : State) (nbits w : Nat) : State :=
  { s with rst := false, input := tableWords nbits w }

end Sys2Proof.Machine
end

