-- ==== Sys2Proof/Machine/HostSide.lean ====
section
/-! DEFINITION. What the host does to the FLB between steps: words in and out, the reset input (R340), and the
pseudo-instructions that stand for sequences of commands (R102). -/

namespace Sys2Proof.Machine

/-- The host delivers words. While reset is asserted none is accepted (R340). -/
def State.deliver (s : State) (ws : List Word) : State :=
  if s.rst then s else { s with input := s.input ++ ws }

/-- The host delivers words as bytes, the least significant first (R67). -/
def State.deliverBytes (s : State) (bs : List Byte) : State := s.deliver (wordsOfBytes bs)

/-- The host reads the response words that stand in the stream. -/
def State.takeResponses (s : State) : List Word × State := (s.output, { s with output := [] })

/-- The host asserts the reset input. -/
def State.assertReset (s : State) : State := { s with rst := true }

/-- The host releases the reset input (R340): every register takes its reset value, words not yet executed are
discarded with no response, and FAULTS is empty. Responses already sent stay sent (log entry 7). DESIGN CHOICE: the
model's own count of free values goes on, so a free value drawn after a reset is not bound to one drawn before it; R310
and R340 say nothing of the two (log entries 3 and 7). -/
def State.releaseReset (s : State) : State := { State.resetWith s.par with output := s.output, free := s.free }

/-- The pseudo-instructions of R102. -/
inductive Pseudo where
  | snap (key : Sel) (v : Word)
  | ramp (key : Sel) (v n : Word)
  | bypassNow (b : Word)
  | render (frames : List (List Word))
  | clearStatus
deriving DecidableEq, Repr

/-- The expansions of R102. -/
def Pseudo.expand : Pseudo → List Instr
  | .snap key v => [.paramSet key v (some 0)]
  | .ramp key v n => [.paramSet key v (some n)]
  | .bypassNow b => [.setBypass b, .blockBegin]
  | .render frames => .blockBegin :: frames.map .frame
  | .clearStatus => [.statusClear 0x3F]

/-- The words of a sequence of commands, in delivery order (R22, R80). -/
def assemble (is : List Instr) : List Word := is.flatMap encode

end Sys2Proof.Machine
end

