-- ==== Sys2Proof/Safety.lean ====
section
/-! DEFINITION. What holds of every state that a run can reach, in the terms the statements use: the storage's canonical
form and bounds (R33), the configuration registers' ranges (R23), the ramp invariant (R27), the LFO's range (R31), and
which states count as failed (R42, R310). -/

namespace Sys2Proof.Machine

/-- A state that R42 does not call failed: no model fault is recorded. -/
abbrev State.sound (s : State) : Prop := s.faults = []

/-- One delay line as R33 bounds it: CAP a power of two up to CAP_MAX, W below CAP, the storage canonical and inside
CAP. -/
abbrev DelayLine.ok (p : Params) (l : DelayLine) : Prop :=
  l.cap.toNat = 2 ^ l.cap.toNat.log2 ∧ l.cap.toNat ≤ p.capMax ∧ l.w.toNat < l.cap.toNat
  ∧ Memory.wf DelayLine.clearSample l.buf = true ∧ ∀ e ∈ l.buf, e.1 < l.cap.toNat

/-- The bank of delay lines: canonical, no line from NCH_MAX on, each listed line as R33 bounds it. -/
abbrev State.storageOk (s : State) : Prop :=
  Memory.wf DelayLine.cleared s.lines = true ∧ ∀ e ∈ s.lines, e.1 < s.par.nchMax ∧ e.2.ok s.par

/-- The configuration registers as R23 bounds them. -/
abbrev State.configOk (s : State) : Prop :=
  s.cfg.nch.toNat ≤ s.par.nchMax
  ∧ (s.life = .ready →
      sampleRateOk s.cfg.sr = true ∧ s.cfg.nch ≠ 0 ∧ s.cfg.maxFrames ≠ 0 ∧ maxDelayOk s.cfg.maxDms = true
      ∧ s.cfg.spm = fdiv s.nan s.cfg.sr f1000)

/-- R27's direction that holds: in state IDLE, CUR and TGT are the same word. -/
abbrev Ramp.ok (r : Ramp) : Prop := r.rem = 0 → r.cur = r.tgt

/-- R27 of all five ramps. -/
abbrev State.rampsOk (s : State) : Prop :=
  s.depth.ok ∧ s.delay.ok ∧ s.feedback.ok ∧ s.dryMix.ok ∧ s.wetMix.ok

/-- R31 with R30's ranges, while no model fault is recorded (log entry 15): INC is inside (−1, 1) and every phase,
saved or not, is in [0, 1). -/
abbrev State.lfoOk (s : State) : Prop :=
  s.faults = [] →
    incOutOfRange s.lfo.inc = false ∧ inUnit s.lfo.ph = true ∧ inUnit s.lfo.qp = true
    ∧ inUnit s.lfo.savPh = true ∧ inUnit s.lfo.savQp = true

end Sys2Proof.Machine
end

