-- ==== Sys2Proof/Certificates/Slice0/Obligations.lean ====
section
/-! DEFINITION. What the model states of itself for the provers. Each definition's docstring names the rule of spec/ it
formalises or rests on. A statement is about the FLB for any open parameters: they stand in the state it quantifies
over. -/

namespace Sys2Proof.Spec

open Sys2Proof.Machine

/-- The ACK word of R86 for a command and a code. -/
def ack (i : Instr) (code : Nat) : Word := BitVec.ofNat 32 (code + 256 * i.mnemonic.opc.toNat)

/-- The number of result words on OK (the results column of R96). -/
def resultCount : Instr → Nat
  | .nop | .configure _ _ _ _ _ | .release | .statusClear _ | .setBypass _ | .blockBegin | .paramSet _ _ _
  | .dlWrite _ _ | .dlResize _ _ | .rpSet _ _ _ | .lfoSetFreq _ | .lfoIncrement | .lfoSave | .lfoRestore => 0
  | .statusRead | .paramGet _ | .dlRead _ _ | .dlReadAt _ _ | .rpFrameValue _ | .rpGet _ | .lfoValue
  | .lfoQuadValue | .lfoValueAndIncrement => 1
  | .frame xs => xs.length

/-- The table of R97: mnemonic, match, mask. -/
def patternTable : List (Mnemonic × Word × Word) :=
  [(.nop, 0x00000000, 0xFFFFFFFF), (.configure, 0x01000000, 0xFF00FFFF), (.release, 0x02000000, 0xFFFFFFFF),
   (.statusRead, 0x03000000, 0xFFFFFFFF), (.statusClear, 0x04000000, 0xFFFFFFFF),
   (.setBypass, 0x08000000, 0xFFFFFFFF), (.blockBegin, 0x09000000, 0xFFFFFFFF),
   (.paramSet, 0x10000000, 0xFF007FFF), (.paramGet, 0x11000000, 0xFF00FFFF), (.frame, 0x12000000, 0xFFFFFFFF)]
  ++ [(.dlWrite, 0x20000000, 0xFF00FFFF), (.dlRead, 0x21000000, 0xFF00FFFF), (.dlReadAt, 0x22000000, 0xFF00FFFF),
   (.dlResize, 0x23000000, 0xFF00FFFF), (.rpSet, 0x30000000, 0xFF00FFFF), (.rpFrameValue, 0x31000000, 0xFF00FFFF),
   (.rpGet, 0x32000000, 0xFF00FFFF)]
  ++ [(.lfoSetFreq, 0x40000000, 0xFFFFFFFF), (.lfoValue, 0x41000000, 0xFFFFFFFF),
   (.lfoQuadValue, 0x42000000, 0xFFFFFFFF), (.lfoValueAndIncrement, 0x43000000, 0xFFFFFFFF),
   (.lfoIncrement, 0x44000000, 0xFFFFFFFF), (.lfoSave, 0x45000000, 0xFFFFFFFF), (.lfoRestore, 0x46000000, 0xFFFFFFFF)]

/-- The opcodes whose SEL column in R96 is not 0. -/
def selectorOpcodes : List (BitVec 8) := [0x01, 0x10, 0x11, 0x20, 0x21, 0x22, 0x23, 0x30, 0x31, 0x32]

/-- The four conditions of R88 on a command word. -/
def IllegalWord (cw : Word) : Prop :=
  (∀ row ∈ patternTable, row.2.1.extractLsb' 24 8 ≠ cw.extractLsb' 24 8)
  ∨ cw.extractLsb' 0 15 ≠ 0
  ∨ (cw.getLsbD 15 = true ∧ cw.extractLsb' 24 8 ≠ 0x10#8)
  ∨ (cw.extractLsb' 16 8 ≠ 0 ∧ cw.extractLsb' 24 8 ∉ selectorOpcodes)

/-- The keys of RAMPED with their numbers (R92). -/
def rampKeys : List (Sel × RampKey) :=
  [(0, .depth), (2, .delay), (3, .feedback), (4, .dryMix), (5, .wetMix)]

/-- The waveforms with their codes (R94). -/
def waveforms : List (Sel × Waveform) := [(0, .sine), (1, .triangle), (2, .sawtooth)]

/-- The range test of R170 on an increment. -/
def incBad (inc : Word) : Prop := isNaN inc = true ∨ fle 0x3F800000 inc = true ∨ fle inc 0xBF800000 = true

/-- What LFOSetFrequency leaves for an increment (R170): INC, and outside (−1, 1) the sticky bit 5 and the fault. -/
def IncWritten (s t : State) (inc : Word) : Prop :=
  t.lfo = { s.lfo with inc := inc }
  ∧ (incBad inc → t.sticky = s.sticky ||| 0x20 ∧ Fault.lfoIncrementRange ∈ t.faults
      ∧ ∀ r, r ∈ t.faults ↔ r ∈ s.faults ∨ r = Fault.lfoIncrementRange)
  ∧ (¬ incBad inc → t.sticky = s.sticky ∧ t.faults = s.faults)

/-- The six checks of R271, all passed. -/
def ConfigAccepted (p : Params) (sr nch mf mdms : Word) : Prop :=
  let x := fmul (nanWord p) mdms (fdiv (nanWord p) sr 0x447A0000)
  (isNaN sr = false ∧ 0 < val sr ∧ isInf sr = false)
  ∧ (nch ≠ 0 ∧ nch.toNat ≤ p.nchMax)
  ∧ mf ≠ 0
  ∧ (isNaN mdms = false ∧ 0 ≤ val mdms ∧ isInf mdms = false)
  ∧ isInf x = false
  ∧ nextPow2 ((fceil x).toNat + 2) ≤ p.capMax

/-- The interpolation of R113 on a line, at a delay in the legal range. -/
def interpolated (nan : Word) (l : DelayLine) (d : Word) : Word :=
  let i := (val d / 2 ^ 149).toNat
  let frac := fsub nan d (ofUnsigned i)
  let newer := l.sample ((l.w - 1 - BitVec.ofNat 32 i) &&& (l.cap - 1)).toNat
  let older := l.sample ((l.w - 1 - BitVec.ofNat 32 (i + 1)) &&& (l.cap - 1)).toNat
  fadd nan (fmul nan frac older) (fmul nan (fsub nan 0x3F800000 frac) newer)

/-- LFOAdvance of R174, as its pseudocode has it. -/
def advancedPhase (nan inc x : Word) : Word :=
  let y0 := fadd nan x inc
  let y1 :=
    if flt 0x00000000 inc = true ∧ fle 0x3F800000 y0 = true then fsub nan y0 0x3F800000
    else if flt inc 0x00000000 = true ∧ flt y0 0x00000000 = true then fadd nan y0 0x3F800000
    else y0
  if feq y1 0x3F800000 = true then 0x00000000 else y1

/-- Wave of R180 for a phase in [0, 1), by the formulas of R181 (SINE), R182 (TRIANGLE) and R183 (SAWTOOTH). -/
def waveformAt (nan : Word) (wf : Waveform) (p : Word) : Word :=
  match wf with
  | .sine =>
    if flt p 0x3F000000 = true then fmul nan 0x41800000 (fmul nan p (fsub nan 0x3F000000 p))
    else
      let q := fsub nan p 0x3F000000
      fmul nan 0x41800000 (fmul nan q (fsub nan 0x3F000000 q)) ^^^ 0x80000000
  | .triangle =>
    let x := fmul nan 0x40800000 p
    if flt p 0x3E800000 = true then x
    else if flt p 0x3F400000 = true then fsub nan 0x40000000 x
    else fsub nan x 0x40800000
  | .sawtooth => fsub nan (fmul nan 0x40000000 p) 0x3F800000

/-- The delay position in samples that a frame computes for an LFO output u (R242, R244). -/
def position (nan spm maxDms depth delay u : Word) : Word :=
  let span := fsub nan (fmul nan depth maxDms) delay
  let m := fmul nan (fadd nan u 0x3F800000) 0x3F000000
  fmul nan (fadd nan delay (fmul nan span m)) spm

/-- The position of channel c in a frame from state s (R241, R252). -/
def framePosition (s : State) (c : Nat) : Word :=
  let u :=
    if c % 2 = 1 ∧ s.stereo = true then waveformAt s.nan s.cfg.wf s.lfo.qp
    else waveformAt s.nan s.cfg.wf s.lfo.ph
  position s.nan s.cfg.spm s.cfg.maxDms (s.depth.advance s.nan).cur (s.delay.advance s.nan).cur u

/-- What channel c of a frame from state s reads from its line (R113, R252). -/
def frameDelayed (s : State) (c : Nat) : Word :=
  (s.line c).interpolate s.nan ((s.line c).clampDelay (framePosition s c)).1

/-- Does the read of channel c in a frame from state s clamp (R113)? -/
def frameClamps (s : State) (c : Nat) : Bool := ((s.line c).clampDelay (framePosition s c)).2

/-- The next step from s executes a command of which P holds. -/
def Runs (s : State) (P : Instr → Prop) : Prop := ∃ i rest, s.rst = false ∧ s.fetch = .command i rest ∧ P i

/-- The commands from which LFOSetFrequency is called (R311): LFO_SETFREQ, PARAM_SET Rate and CONFIGURE. -/
def SetsIncrement (i : Instr) : Prop :=
  (∃ f, i = .lfoSetFreq f) ∨ (∃ v dur, i = .paramSet 1 v dur) ∨ ∃ k sr nch mf mdms, i = .configure k sr nch mf mdms

/-- A nonnegative word with the sign bit that `neg` says (R13). -/
def signed (neg : Bool) (w : Word) : Word := if neg then w ||| 0x80000000 else w

/-- r is the number with sign `neg` and magnitude n / d, in units of 2^−149, rounded to nearest with ties to even (R12):
an infinity exactly from half a spacing above the greatest finite magnitude on, else the finite magnitude nearest to it,
with an even last bit where another is as near. -/
def IsRounding (r : Word) (neg : Bool) (n d : Nat) : Prop :=
  fsign r = neg ∧ isNaN r = false
  ∧ (isInf r = true ↔ (2 ^ 25 - 1) * 2 ^ 252 * d ≤ n)
  ∧ (isInf r = false → ∀ w : Word, isFinite w = true →
      |(n : Int) - mag r * d| ≤ |(n : Int) - mag w * d|
      ∧ (|(n : Int) - mag r * d| = |(n : Int) - mag w * d| → mag w ≠ mag r → r.getLsbD 0 = false))

end Sys2Proof.Spec

open Sys2Proof Sys2Proof.Machine

/-! ## The command stream -/

/-- R71, R80, R90: when the stream's front decodes to a command, the step is that command's meaning, on the state whose
stream has lost exactly the command's words. Every per-command statement reaches a run through this one. -/
def Obligations.StepRunsDecodedCommand : Prop :=
  ∀ (s : State) (i : Instr) (rest : List Word), s.rst = false → i.wellFormed = true →
    decode (if s.life = .ready then s.cfg.nch.toNat else 0) s.input = .command i rest →
    step s = exec i { s with input := rest }

/-- R88: a command word under any of the four conditions. -/
def Obligations.IllegalWordIsAnsweredAlone : Prop :=
  ∀ (s : State) (cw : Word) (ws : List Word), s.rst = false → s.input = cw :: ws → Spec.IllegalWord cw →
    step s = .next { s with
      input := ws
      sticky := s.sticky ||| 0x01
      output := s.output ++ [0#16 ++ cw.extractLsb' 24 8 ++ 1#8] }

/-- R80, R325, R340: with no whole command the FLB waits and keeps all its state; under reset it accepts none. That a
partly received command waits in State.input is the model's form (log entry 1). -/
def Obligations.IncompleteCommandWaits : Prop :=
  (∀ s : State, s.rst = true → step s = .next s)
  ∧ (∀ s : State, s.input = [] → step s = .next s)
  ∧ (∀ (s : State) (i : Instr) (k : Nat), s.rst = false → s.input = (encode i).take k → k < (encode i).length →
      (∀ xs, i = .frame xs → xs.length = s.frameOperands) → step s = .next s)

/-- R300: no command, legal or not, stops the FLB. -/
def Obligations.StepNeverStops : Prop := ∀ s : State, ∃ t, step s = .next t

/-! ## Encoding -/

/-- R80, R81, R97: every well-formed command decodes from its own words, whatever follows them. -/
def Obligations.DecodeReadsEncodedCommand : Prop :=
  ∀ (i : Instr) (n : Nat) (rest : List Word), i.wellFormed = true → (∀ xs, i = .frame xs → xs.length = n) →
    decode n (encode i ++ rest) = .command i rest

/-- R80, R88: a command is decoded from no other words than its own, so no bit of a command word is dropped. -/
def Obligations.DecodedCommandReencodes : Prop :=
  ∀ (n : Nat) (ws rest : List Word) (i : Instr), decode n ws = .command i rest → encode i ++ rest = ws

/-- R97: a word is legal with a row's mnemonic exactly when its masked bits are the row's. -/
def Obligations.HeaderMatchesPatternTable : Prop :=
  (∀ (cw : Word), ∀ row ∈ Spec.patternTable,
    (cw &&& row.2.2 = row.2.1 ↔ ∃ sel d, decodeHeader cw = .ok { op := row.1, sel := sel, d := d }))
  ∧ (∀ cw : Word, (∀ row ∈ Spec.patternTable, cw &&& row.2.2 ≠ row.2.1) → ∃ e, decodeHeader cw = .error e)
  ∧ Spec.patternTable.Pairwise (fun a b => a.2.1.extractLsb' 24 8 ≠ b.2.1.extractLsb' 24 8)

/-- R101, R97: words written out from the spec decode to the commands they stand for. -/
def Obligations.WrittenOutWordsDecode : Prop :=
  decode 2 [0x01000000, 0x473B8000, 0x00000002, 0x00000200, 0x41200000]
    = .command (.configure 0 0x473B8000 2 512 0x41200000) []
  ∧ decode 2 [0x10000000, 0x42480000] = .command (.paramSet 0 0x42480000 none) []
  ∧ decode 2 [0x10008000, 0x42480000, 0x00000000] = .command (.paramSet 0 0x42480000 (some 0)) []
  ∧ decode 2 [0x21010000, 0x40200000] = .command (.dlRead 1 0x40200000) []
  ∧ decode 2 [0x12000000, 0x3F800000, 0x00000000] = .command (.frame [0x3F800000, 0x00000000]) []
  ∧ decode 2 [0x30050000, 0x3F800000, 0x00000004] = .command (.rpSet 5 0x3F800000 4) []
  ∧ decode 2 [0x43000000] = .command .lfoValueAndIncrement []

/-- R67: a word travels as four bytes, the least significant first, and words so sent are read back. -/
def Obligations.WordsTravelLittleEndian : Prop :=
  (∀ w : Word, (wordToBytes w).map BitVec.toNat =
    [w.toNat % 256, w.toNat / 256 % 256, w.toNat / 65536 % 256, w.toNat / 16777216])
  ∧ (∀ ws : List Word, wordsOfBytes (ws.flatMap wordToBytes) = ws)

/-! ## Responses and rejections -/

/-- R86, R87: a command's response is one ACK word with a code of R301 and its opcode, and on OK the result words that
R96 counts, on a rejection none. -/
def Obligations.EveryCommandAnswersOnce : Prop :=
  ∀ (i : Instr) (s t : State), exec i s = .next t →
    ∃ (code : Nat) (results : List Word), code ≤ 4 ∧ t.output = s.output ++ Spec.ack i code :: results
      ∧ results.length = if code = 0 then Spec.resultCount i else 0

/-- R303: a rejected command changes one sticky bit, answers with its code alone, and its words are consumed: those of
the whole command for the codes 2 to 4, the command word alone for ILLEGAL (R88, R90). -/
def Obligations.RejectionChangesOneStickyBit : Prop :=
  (∀ (i : Instr) (s t : State) (rest results : List Word) (code : Nat), s.rst = false →
    s.fetch = .command i rest → step s = .next t → 2 ≤ code → code ≤ 4 →
    t.output = s.output ++ Spec.ack i code :: results →
    t = { s with
      input := rest
      sticky := s.sticky ||| (1#6 <<< (code - 1))
      output := s.output ++ [Spec.ack i code] })
  ∧ ∀ (s : State) (cw : Word) (ws rest : List Word) (why : DecodeError) (opc : BitVec 8), s.rst = false →
    s.input = cw :: ws → s.fetch = .illegal why opc rest →
    rest = ws ∧ opc = cw.extractLsb' 24 8
    ∧ step s = .next { s with
        input := ws
        sticky := s.sticky ||| 0x01
        output := s.output ++ [0#16 ++ opc ++ 1#8] }

/-- R305, R351: each command of R96's READY column answers NOT_READY while UNCONFIGURED, whatever its selector and
operands. -/
def Obligations.UnconfiguredAnswersNotReady : Prop :=
  ∀ (s : State) (i : Instr), s.life = .unconfigured →
    (i = .frame [] ∨ (∃ c x, i = .dlWrite c x) ∨ (∃ c d, i = .dlRead c d) ∨ (∃ c j, i = .dlReadAt c j)
      ∨ (∃ c n, i = .dlResize c n) ∨ (∃ f, i = .lfoSetFreq f)) →
    exec i s = .next { s with sticky := s.sticky ||| 0x04, output := s.output ++ [Spec.ack i 3] }

/-- R93, R305: a channel from NCH on is BAD_SEL. -/
def Obligations.ChannelOutOfRangeIsBadSel : Prop :=
  ∀ (s : State) (i : Instr) (c : Sel) (x : Word), s.life = .ready → s.cfg.nch.toNat ≤ c.toNat →
    (i = .dlWrite c x ∨ i = .dlRead c x ∨ i = .dlReadAt c x ∨ i = .dlResize c x) →
    exec i s = .next { s with sticky := s.sticky ||| 0x02, output := s.output ++ [Spec.ack i 2] }

/-- R92, R94: a key that the command does not take, and a waveform code above 2, are BAD_SEL. -/
def Obligations.UnknownSelectorIsBadSel : Prop :=
  ∀ (s : State) (i : Instr) (k : Sel),
    ((8 ≤ k.toNat ∧ ((∃ v dur, i = .paramSet k v dur) ∨ i = .paramGet k))
      ∨ ((∀ r, (k, r) ∉ Spec.rampKeys) ∧ ((∃ t d, i = .rpSet k t d) ∨ i = .rpFrameValue k ∨ i = .rpGet k))
      ∨ (3 ≤ k.toNat ∧ ∃ sr nch mf mdms, i = .configure k sr nch mf mdms)) →
    exec i s = .next { s with sticky := s.sticky ||| 0x02, output := s.output ++ [Spec.ack i 2] }

/-- FRAME with another operand count than R80 gives stops by name. The model's own convention (log entry 8): no step
meets such a term. -/
def Obligations.FrameOfWrongLengthIsRefused : Prop :=
  ∀ (s : State) (xs : List Word),
    xs.length ≠ (if s.life = .ready then s.cfg.nch.toNat else 0) → exec (.frame xs) s = .refused .frameOperandCount

/-! ## Configuration and status -/

/-- R284: NOP only answers. -/
def Obligations.NopOnlyAnswers : Prop :=
  ∀ s : State, exec .nop s = .next { s with output := s.output ++ [0x00000000] }

/-- R272: what a CONFIGURE whose checks pass commits, and that it leaves everything else. -/
def Obligations.ConfigureCommits : Prop :=
  ∀ (s : State) (k : Sel) (wf : Waveform) (sr nch mf mdms : Word), (k, wf) ∈ Spec.waveforms →
    Spec.ConfigAccepted s.par sr nch mf mdms →
    ∃ t, exec (.configure k sr nch mf mdms) s = .next t
      ∧ t = { s with
          output := s.output ++ [0x00000100]
          life := .ready
          cfg := { sr := sr, nch := nch, maxFrames := mf, maxDms := mdms,
                   spm := fdiv s.nan sr 0x447A0000, wf := wf }
          lines := t.lines, lfo := t.lfo, sticky := t.sticky, faults := t.faults }
      ∧ (∀ c < nch.toNat,
          (t.line c).cap.toNat = nextPow2 ((fceil (fmul s.nan mdms (fdiv s.nan sr 0x447A0000))).toNat + 2)
          ∧ (t.line c).w = 0 ∧ ∀ j, (t.line c).sample j = 0x00000000)
      ∧ (∀ c, nch.toNat ≤ c → t.line c = s.line c)
      ∧ Spec.IncWritten s t (fdiv s.nan s.rate sr)

/-- R271: a CONFIGURE with a legal waveform is rejected with CFG_INVALID exactly when a check fails. -/
def Obligations.ConfigureChecksDecide : Prop :=
  ∀ (s : State) (k : Sel) (wf : Waveform) (sr nch mf mdms : Word), (k, wf) ∈ Spec.waveforms →
    (¬ Spec.ConfigAccepted s.par sr nch mf mdms →
      exec (.configure k sr nch mf mdms) s
        = .next { s with sticky := s.sticky ||| 0x08, output := s.output ++ [0x00000104] })
    ∧ (Spec.ConfigAccepted s.par sr nch mf mdms →
      ∃ t, exec (.configure k sr nch mf mdms) s = .next t ∧ t.output = s.output ++ [0x00000100])

/-- R276: RELEASE leaves UNCONFIGURED and every line at CAP 1, W 0 and +0.0, and nothing else changes. -/
def Obligations.ReleaseTearsDown : Prop :=
  ∀ s : State, ∃ t, exec .release s = .next t
    ∧ t = { s with life := .unconfigured, lines := t.lines, output := s.output ++ [0x00000200] }
    ∧ ∀ c, (t.line c).cap = 1 ∧ (t.line c).w = 0 ∧ ∀ j, (t.line c).sample j = 0x00000000

/-- R40, R280: every bit of the STATUS word, and that reading it changes nothing. -/
def Obligations.StatusReadShowsEveryBit : Prop :=
  ∀ s : State, ∃ r : Word, exec .statusRead s = .next { s with output := s.output ++ [0x00000300, r] }
    ∧ (∀ b < 6, r.getLsbD b = s.sticky.getLsbD b) ∧ r.getLsbD 6 = false ∧ r.getLsbD 7 = false
    ∧ (r.getLsbD 8 = true ↔ s.life = .ready) ∧ r.getLsbD 9 = s.bypAct ∧ r.getLsbD 10 = s.bypPend
    ∧ r.getLsbD 11 = s.negFb ∧ r.getLsbD 12 = s.stereo
    ∧ (∀ b, 13 ≤ b → b < 16 → r.getLsbD b = false)
    ∧ (∀ k, ∀ rk, (k, rk) ∈ Spec.rampKeys → (r.getLsbD (16 + k.toNat) = true ↔ (s.ramp rk).rem ≠ 0))
    ∧ r.getLsbD 17 = false ∧ r.getLsbD 22 = false ∧ r.getLsbD 23 = false
    ∧ (∀ k, ∀ wf, (k, wf) ∈ Spec.waveforms → (s.cfg.wf = wf ↔ r.extractLsb' 24 2 = k.setWidth 2))
    ∧ ∀ b, 26 ≤ b → b < 32 → r.getLsbD b = false

/-- R282: the sticky bits whose mask bit is 1 are cleared; mask bits 31:6 and all else do nothing. -/
def Obligations.StatusClearClearsMasked : Prop :=
  ∀ (s : State) (mask : Word), ∃ t, exec (.statusClear mask) s = .next t
    ∧ t = { s with sticky := t.sticky, output := s.output ++ [0x00000400] }
    ∧ ∀ b < 6, t.sticky.getLsbD b = (s.sticky.getLsbD b && !mask.getLsbD b)

/-! ## Render control -/

/-- R213: SET_BYPASS writes BYP_PEND alone, BLOCK_BEGIN copies it to BYP_ACT, and nothing else changes. -/
def Obligations.BypassReachesFramesAtBlockBegin : Prop :=
  ∀ (s : State) (b : Word),
    exec (.setBypass b) s = .next { s with bypPend := b.getLsbD 0, output := s.output ++ [0x00000800] }
    ∧ exec .blockBegin s = .next { s with bypAct := s.bypPend, output := s.output ++ [0x00000900] }
    ∧ ∀ t u, exec (.setBypass b) s = .next t → exec .blockBegin t = .next u →
        u = { s with bypPend := b.getLsbD 0, bypAct := b.getLsbD 0, output := s.output ++ [0x00000800, 0x00000900] }

/-- R212: a bypassed frame's outputs are its inputs, bit for bit, whatever else the state holds; R211: no ramp, phase,
line or other register changes. That this holds after a model fault too is the model's reading (log entry 5). -/
def Obligations.BypassedFrameCopies : Prop :=
  ∀ (s : State) (xs : List Word), s.life = .ready → s.bypAct = true → xs.length = s.cfg.nch.toNat →
    exec (.frame xs) s = .next { s with output := s.output ++ 0x00001200 :: xs }

/-! ## The flange kernel -/

/-- R252 with R241 to R246: an effected frame. Each channel reads its own line at its position, writes back input plus
signed feedback, and mixes; ramps and phases advance once; DLY_CLAMP is set exactly when some read clamps. -/
def Obligations.FrameRendersEveryChannel : Prop :=
  ∀ (s : State) (xs : List Word), s.life = .ready → s.bypAct = false → s.faults = [] →
    xs.length = s.cfg.nch.toNat → inUnit s.lfo.ph = true → inUnit s.lfo.qp = true →
    ∃ t ys, exec (.frame xs) s = .next t ∧ ys.length = xs.length
      ∧ t = { s with
          output := s.output ++ 0x00001200 :: ys
          depth := s.depth.advance s.nan, delay := s.delay.advance s.nan
          feedback := s.feedback.advance s.nan
          dryMix := s.dryMix.advance s.nan, wetMix := s.wetMix.advance s.nan
          lfo := { s.lfo with
            ph := Spec.advancedPhase s.nan s.lfo.inc s.lfo.ph
            qp := Spec.advancedPhase s.nan s.lfo.inc s.lfo.qp }
          lines := t.lines, sticky := t.sticky }
      ∧ (∀ c x, xs[c]? = some x →
          ys[c]? = some (fadd s.nan (fmul s.nan t.wetMix.cur (Spec.frameDelayed s c))
                          (fmul s.nan t.dryMix.cur x))
          ∧ t.line c = (s.line c).write (fadd s.nan x
              (fmul s.nan (if s.negFb then t.feedback.cur ^^^ 0x80000000 else t.feedback.cur)
                (Spec.frameDelayed s c))))
      ∧ (∀ c, xs.length ≤ c → t.line c = s.line c)
      ∧ ((∃ c, c < xs.length ∧ Spec.frameClamps s c = true) → t.sticky = s.sticky ||| 0x10)
      ∧ ((∀ c, c < xs.length → Spec.frameClamps s c = false) → t.sticky = s.sticky)

/-- R310, R311 (with log entries 3 and 4 for the form of the free values): after a model fault an effected frame still
runs; its ramps advance, INC and the saved phases are kept, each channel's line takes one write, and no other register
changes. -/
def Obligations.FrameAfterModelFaultStillRuns : Prop :=
  ∀ (s : State) (xs : List Word), s.life = .ready → s.bypAct = false → s.faults ≠ [] →
    xs.length = s.cfg.nch.toNat →
    ∃ t ys, exec (.frame xs) s = .next t ∧ ys.length = xs.length
      ∧ t = { s with
          output := s.output ++ 0x00001200 :: ys
          depth := s.depth.advance s.nan, delay := s.delay.advance s.nan
          feedback := s.feedback.advance s.nan
          dryMix := s.dryMix.advance s.nan, wetMix := s.wetMix.advance s.nan
          lfo := { s.lfo with ph := t.lfo.ph, qp := t.lfo.qp }
          lines := t.lines, sticky := t.sticky, free := t.free }
      ∧ (∀ c < xs.length, ∃ y, t.line c = (s.line c).write y)
      ∧ (∀ c, xs.length ≤ c → t.line c = s.line c)
      ∧ (t.sticky = s.sticky ∨ t.sticky = s.sticky ||| 0x10)

/-- R250 with R232, R233, R236: PARAM_SET of a ramped key sets its ramp to the internal value, over the duration it
carries or DEFAULT_RAMP_FRAMES, and changes no other register. -/
def Obligations.ParamSetStartsRamp : Prop :=
  ∀ (s : State) (k : Sel) (rk : RampKey) (v : Word) (dur : Option Word), (k, rk) ∈ Spec.rampKeys →
    ∃ t, exec (.paramSet k v dur) s = .next t
      ∧ t = { s with
          output := s.output ++ [0x00001000], depth := t.depth, delay := t.delay, feedback := t.feedback
          dryMix := t.dryMix, wetMix := t.wetMix }
      ∧ (∀ other, other ≠ rk → t.ramp other = s.ramp other)
      ∧ (t.ramp rk).tgt = (if k = 2 then v else fdiv s.nan v 0x42C80000)
      ∧ ((match dur with | some d => d | none => s.par.defaultRampFrames) = 0 →
          (t.ramp rk).cur = (t.ramp rk).tgt ∧ (t.ramp rk).rem = 0 ∧ (t.ramp rk).step = 0x00000000)
      ∧ ∀ d, (match dur with | some d => d | none => s.par.defaultRampFrames) = d → d ≠ 0 →
          (t.ramp rk).cur = (s.ramp rk).cur ∧ (t.ramp rk).rem = d
          ∧ (t.ramp rk).step = fdiv s.nan (fsub s.nan (t.ramp rk).tgt (s.ramp rk).cur) (ofUnsigned d.toNat)

/-- R235, R251: PARAM_SET Rate stores the value and recomputes INC only when READY; PARAM_GET Rate gives RATE in every
state, so also what was just set, and changes nothing. -/
def Obligations.ParamSetRateStoresRate : Prop :=
  ∀ (s : State) (v : Word) (dur : Option Word), ∃ t, exec (.paramSet 1 v dur) s = .next t
    ∧ t = { s with
        output := s.output ++ [0x00001000], rate := v, lfo := t.lfo, sticky := t.sticky, faults := t.faults }
    ∧ (s.life = .ready → Spec.IncWritten s t (fdiv s.nan v s.cfg.sr))
    ∧ (s.life = .unconfigured → t.lfo = s.lfo ∧ t.sticky = s.sticky ∧ t.faults = s.faults)
    ∧ exec (.paramGet 1) t = .next { t with output := t.output ++ [0x00001100, v] }
    ∧ exec (.paramGet 1) s = .next { s with output := s.output ++ [0x00001100, s.rate] }

/-- R234: a boolean key stores 1 exactly when its value is above 0.0, and reads back 1.0 or +0.0. -/
def Obligations.BooleanKeysThreshold : Prop :=
  ∀ (s : State) (v : Word) (dur : Option Word),
    (exec (.paramSet 6 v dur) s
        = .next { s with negFb := flt 0x00000000 v, output := s.output ++ [0x00001000] })
    ∧ (exec (.paramSet 7 v dur) s
        = .next { s with stereo := flt 0x00000000 v, output := s.output ++ [0x00001000] })
    ∧ ((isNaN v = true ∨ val v ≤ 0) ↔ flt 0x00000000 v = false)
    ∧ exec (.paramGet 6) s = .next { s with
        output := s.output ++ [0x00001100, if s.negFb then 0x3F800000 else 0x00000000] }
    ∧ exec (.paramGet 7) s = .next { s with
        output := s.output ++ [0x00001100, if s.stereo then 0x3F800000 else 0x00000000] }

/-- R251 with R232, R233, R145: PARAM_GET of a ramped key gives its settled value at the boundary unit and changes
nothing. -/
def Obligations.ParamGetReadsSettledValue : Prop :=
  ∀ (s : State) (k : Sel) (rk : RampKey), (k, rk) ∈ Spec.rampKeys →
    exec (.paramGet k) s = .next { s with
      output := s.output ++ [0x00001100,
        if k = 2 then (if (s.ramp rk).rem = 0 then (s.ramp rk).cur else (s.ramp rk).tgt)
        else fmul s.nan (if (s.ramp rk).rem = 0 then (s.ramp rk).cur else (s.ramp rk).tgt) 0x42C80000] }

/-- R237, the source's S9: 50.0 set on a percentage key reads back 50.0 from the moment of the set, ramp or not. -/
def Obligations.PercentageFiftyRoundTrips : Prop :=
  ∀ (s t u : State) (k : Sel) (dur : Option Word), k ∈ [(0 : Sel), 3, 4, 5] →
    exec (.paramSet k 0x42480000 dur) s = .next t → exec (.paramGet k) t = .next u →
    u.output = s.output ++ [0x00001000, 0x00001100, 0x42480000]

/-- R245, R244 (log entry 16 for the added bound on MAXDMS): under R245's conditions no position of a frame is clamped,
on a line at least as large as the kernel asks for. -/
def Obligations.KernelPositionsAreNotClamped : Prop :=
  ∀ (p : Params) (l : DelayLine) (sr mdms depth delay u : Word),
    let nan := nanWord p
    let spm := fdiv nan sr 0x447A0000
    let x := fmul nan mdms spm
    sampleRateOk sr = true → maxDelayOk mdms = true → fle mdms 0x7F000000 = true → isInf x = false →
    fceil x ≤ 2 ^ 21 → l.ok p → (fceil x).toNat + 2 ≤ l.cap.toNat →
    fle 0x00000000 depth = true → fle depth 0x3F800000 = true →
    fle 0x00000000 delay = true → fle delay mdms = true →
    fle 0xBF800000 u = true → fle u 0x3F800000 = true →
    l.clampDelay (Spec.position nan spm mdms depth delay u)
      = (Spec.position nan spm mdms depth delay u, false)

/-- R343: with the reset values, a frame right after the first CONFIGURE is silent, for finite input samples. -/
def Obligations.FirstFrameIsSilent : Prop :=
  ∀ (p : Params) (k : Sel) (wf : Waveform) (sr nch mf mdms : Word) (xs : List Word) (t : State),
    (k, wf) ∈ Spec.waveforms → exec (.configure k sr nch mf mdms) (State.resetWith p) = .next t →
    t.life = .ready → xs.length = nch.toNat → (∀ x ∈ xs, isFinite x = true) →
    ∃ u, exec (.frame xs) t = .next u
      ∧ u.output = t.output ++ 0x00001200 :: List.replicate xs.length 0x00000000

/-! ## Delay lines -/

/-- R110: DL_WRITE stores the word bit for bit at the cursor and advances the cursor modulo CAP; every other sample, line
and register is kept. -/
def Obligations.DlWriteStoresAtCursor : Prop :=
  ∀ (s : State) (c : Sel) (x : Word), s.life = .ready → c.toNat < s.cfg.nch.toNat →
    ∃ t, exec (.dlWrite c x) s = .next t
      ∧ t = { s with lines := t.lines, output := s.output ++ [0x00002000] }
      ∧ (t.line c.toNat).sample (s.line c.toNat).w.toNat = x
      ∧ (∀ j, j ≠ (s.line c.toNat).w.toNat → (t.line c.toNat).sample j = (s.line c.toNat).sample j)
      ∧ (t.line c.toNat).cap = (s.line c.toNat).cap
      ∧ (t.line c.toNat).w = ((s.line c.toNat).w + 1) &&& ((s.line c.toNat).cap - 1)
      ∧ ((s.line c.toNat).ok s.par →
          (t.line c.toNat).w.toNat = ((s.line c.toNat).w.toNat + 1) % (s.line c.toNat).cap.toNat)
      ∧ ∀ e, e ≠ c.toNat → t.line e = s.line e

/-- R113: DL_READ. In the legal range the value is interpolated at the delay itself; a NaN or negative delay reads at
+0.0 and one from CAP − 1 on at the last legal delay, and these set DLY_CLAMP. Nothing else changes. -/
def Obligations.DlReadInterpolatesOrClamps : Prop :=
  ∀ (s : State) (c : Sel) (d : Word), s.life = .ready → c.toNat < s.cfg.nch.toNat →
    (s.line c.toNat).ok s.par →
    ((isNaN d = false ∧ 0 ≤ val d ∧ val d < ((s.line c.toNat).cap.toNat - 1 : Int) * 2 ^ 149) →
      exec (.dlRead c d) s = .next { s with
        output := s.output ++ [0x00002100, Spec.interpolated s.nan (s.line c.toNat) d] })
    ∧ ((isNaN d = true ∨ val d < 0) →
      exec (.dlRead c d) s = .next { s with
        sticky := s.sticky ||| 0x10
        output := s.output ++ [0x00002100, Spec.interpolated s.nan (s.line c.toNat) 0x00000000] })
    ∧ ((isNaN d = false ∧ 0 ≤ val d ∧ ((s.line c.toNat).cap.toNat - 1 : Int) * 2 ^ 149 ≤ val d) →
      exec (.dlRead c d) s = .next { s with
        sticky := s.sticky ||| 0x10
        output := s.output ++ [0x00002100,
          Spec.interpolated s.nan (s.line c.toNat)
            (if (s.line c.toNat).cap = 1 then 0x00000000
             else nextDown (ofUnsigned ((s.line c.toNat).cap.toNat - 1)))] })

/-- R111: DL_READAT gives the stored word i writes before the newest, i reduced modulo CAP, and changes nothing. -/
def Obligations.DlReadAtCountsFromNewest : Prop :=
  ∀ (s : State) (c : Sel) (i : Word), s.life = .ready → c.toNat < s.cfg.nch.toNat →
    exec (.dlReadAt c i) s = .next { s with
      output := s.output ++ [0x00002200,
        (s.line c.toNat).sample (((s.line c.toNat).w - 1 - i) &&& ((s.line c.toNat).cap - 1)).toNat] }
    ∧ ((s.line c.toNat).ok s.par →
        exec (.dlReadAt c i) s = .next { s with
          output := s.output ++ [0x00002200,
            (s.line c.toNat).sample
              (((s.line c.toNat).w.toNat + 2 ^ 32 - 1 - i.toNat) % (s.line c.toNat).cap.toNat)] })

/-- R112, R123: DL_RESIZE clears the line at capacity nextPow2(n), or answers CFG_INVALID above CAP_MAX. -/
def Obligations.DlResizeClearsLine : Prop :=
  ∀ (s : State) (c : Sel) (n : Word), s.life = .ready → c.toNat < s.cfg.nch.toNat →
    (nextPow2 n.toNat ≤ s.par.capMax →
      ∃ t, exec (.dlResize c n) s = .next t
        ∧ t = { s with lines := t.lines, output := s.output ++ [0x00002300] }
        ∧ (t.line c.toNat).cap.toNat = nextPow2 n.toNat ∧ (t.line c.toNat).w = 0
        ∧ (∀ j, (t.line c.toNat).sample j = 0x00000000)
        ∧ ∀ e, e ≠ c.toNat → t.line e = s.line e)
    ∧ (s.par.capMax < nextPow2 n.toNat →
      exec (.dlResize c n) s
        = .next { s with sticky := s.sticky ||| 0x08, output := s.output ++ [0x00002304] })

/-- R111, its first sentence, with R110: after a sequence of writes, index d reads the word written d writes before the last, bit for bit, for
every d below both the number of writes and CAP. -/
def Obligations.ReadAtReturnsWrittenWord : Prop :=
  ∀ (p : Params) (l : DelayLine) (xs : List Word) (d : Nat) (x : Word), l.ok p → d < l.cap.toNat →
    xs.reverse[d]? = some x → (xs.foldl DelayLine.write l).readAt (BitVec.ofNat 32 d) = x

/-- R115.1, the source's S1, with IEEE equality (log entry 19): for finite stored samples, an integer delay d that is in
the legal range reads the value written d writes before the last, unclamped. -/
def Obligations.IntegerDelayReadsEarlierSample : Prop :=
  ∀ (p : Params) (l : DelayLine) (xs : List Word) (d : Nat) (x : Word), l.ok p → d + 1 < l.cap.toNat →
    (∀ j, isFinite (l.sample j) = true) → (∀ y ∈ xs, isFinite y = true) → xs.reverse[d]? = some x →
    (xs.foldl DelayLine.write l).clampDelay (ofUnsigned d) = (ofUnsigned d, false)
    ∧ feq ((xs.foldl DelayLine.write l).interpolate (nanWord p) (ofUnsigned d)) x = true

/-! ## Ramping parameters -/

/-- R141: RP_SET, on the ramp of its key; no other register changes. -/
def Obligations.RpSetArmsOrSnaps : Prop :=
  ∀ (s : State) (k : Sel) (rk : RampKey) (v d : Word), (k, rk) ∈ Spec.rampKeys →
    ∃ t, exec (.rpSet k v d) s = .next t
      ∧ t = { s with
          output := s.output ++ [0x00003000], depth := t.depth, delay := t.delay, feedback := t.feedback
          dryMix := t.dryMix, wetMix := t.wetMix }
      ∧ (∀ other, other ≠ rk → t.ramp other = s.ramp other)
      ∧ (d ≠ 0 → t.ramp rk =
          { cur := (s.ramp rk).cur, tgt := v, rem := d
            step := fdiv s.nan (fsub s.nan v (s.ramp rk).cur) (ofUnsigned d.toNat) })
      ∧ (d = 0 → t.ramp rk = { cur := v, tgt := v, step := 0x00000000, rem := 0 })

/-- R144: RP_FRAMEVALUE advances the ramp of its key by one frame and answers the value it then has. -/
def Obligations.RpFrameValueAdvances : Prop :=
  ∀ (s : State) (k : Sel) (rk : RampKey), (k, rk) ∈ Spec.rampKeys →
    ∃ t, exec (.rpFrameValue k) s = .next t
      ∧ t = { s with
          output := s.output ++ [0x00003100, (t.ramp rk).cur], depth := t.depth, delay := t.delay
          feedback := t.feedback, dryMix := t.dryMix, wetMix := t.wetMix }
      ∧ (∀ other, other ≠ rk → t.ramp other = s.ramp other)
      ∧ ((s.ramp rk).rem = 0 → t.ramp rk = s.ramp rk)
      ∧ ((s.ramp rk).rem = 1 → t.ramp rk = { s.ramp rk with cur := (s.ramp rk).tgt, rem := 0 })
      ∧ (1 < (s.ramp rk).rem.toNat → t.ramp rk =
          { s.ramp rk with
            cur := fadd s.nan (s.ramp rk).cur (s.ramp rk).step, rem := (s.ramp rk).rem - 1 })

/-- R145: RP_GET answers the settled value and changes nothing. -/
def Obligations.RpGetReadsSettledValue : Prop :=
  ∀ (s : State) (k : Sel) (rk : RampKey), (k, rk) ∈ Spec.rampKeys →
    exec (.rpGet k) s = .next { s with
      output := s.output ++ [0x00003200, if (s.ramp rk).rem = 0 then (s.ramp rk).cur else (s.ramp rk).tgt] }

/-- R146.1 to R146.3: a ramp of N frames adds its step N − 1 times, ends on the target at frame N exactly and stays
there; the settled value is the target throughout. -/
def Obligations.RampEndsExactlyOnTarget : Prop :=
  ∀ (nan : Word) (r : Ramp) (v d : Word),
    (∀ j, ((Ramp.advance nan)^[j] (r.set nan v d)).settled = v)
    ∧ (∀ j < d.toNat,
        ((Ramp.advance nan)^[j] (r.set nan v d)).cur = (fun c => fadd nan c (r.set nan v d).step)^[j] r.cur
        ∧ ((Ramp.advance nan)^[j] (r.set nan v d)).rem.toNat = d.toNat - j)
    ∧ ∀ j, d.toNat ≤ j →
        ((Ramp.advance nan)^[j] (r.set nan v d)).cur = v ∧ ((Ramp.advance nan)^[j] (r.set nan v d)).rem = 0

/-! ## LFO -/

/-- R170, R190: LFO_SETFREQ writes INC alone, and outside (−1, 1) sets LFO_RANGE and records the fault. RATE, the phases
and all else are kept. -/
def Obligations.LfoSetFreqWritesIncrement : Prop :=
  ∀ (s : State) (f : Word), s.life = .ready →
    ∃ t, exec (.lfoSetFreq f) s = .next t
      ∧ t = { s with
          output := s.output ++ [0x00004000], lfo := t.lfo, sticky := t.sticky, faults := t.faults }
      ∧ Spec.IncWritten s t (fdiv s.nan f s.cfg.sr)

/-- R176: the peeks answer Wave(PH) and Wave(QP) and change nothing, where the spec fixes the LFO's outputs. -/
def Obligations.LfoPeeksChangeNothing : Prop :=
  ∀ s : State, s.faults = [] →
    (inUnit s.lfo.ph = true → exec .lfoValue s
      = .next { s with output := s.output ++ [0x00004100, Spec.waveformAt s.nan s.cfg.wf s.lfo.ph] })
    ∧ (inUnit s.lfo.qp = true → exec .lfoQuadValue s
      = .next { s with output := s.output ++ [0x00004200, Spec.waveformAt s.nan s.cfg.wf s.lfo.qp] })

/-- R174, R175, R177: LFO_INCREMENT advances both phases by INC, and LFO_VALUE_AND_INCREMENT first answers Wave(PH); no
other register changes. -/
def Obligations.LfoAdvancesBothPhases : Prop :=
  ∀ s : State, s.faults = [] →
    exec .lfoIncrement s = .next { s with
      output := s.output ++ [0x00004400]
      lfo := { s.lfo with
        ph := Spec.advancedPhase s.nan s.lfo.inc s.lfo.ph
        qp := Spec.advancedPhase s.nan s.lfo.inc s.lfo.qp } }
    ∧ (inUnit s.lfo.ph = true → exec .lfoValueAndIncrement s = .next { s with
      output := s.output ++ [0x00004300, Spec.waveformAt s.nan s.cfg.wf s.lfo.ph]
      lfo := { s.lfo with
        ph := Spec.advancedPhase s.nan s.lfo.inc s.lfo.ph
        qp := Spec.advancedPhase s.nan s.lfo.inc s.lfo.qp } })

/-- R310, R311 (with log entry 3 for the form of the free values): after a model fault the LFO commands still answer OK,
with one result word where R96 gives one, and touch no register but the phases they advance. -/
def Obligations.LfoAfterModelFaultStillRuns : Prop :=
  ∀ s : State, s.faults ≠ [] →
    (∃ v n, exec .lfoValue s = .next { s with output := s.output ++ [0x00004100, v], free := n })
    ∧ (∃ v n, exec .lfoQuadValue s = .next { s with output := s.output ++ [0x00004200, v], free := n })
    ∧ (∃ v n ph qp, exec .lfoValueAndIncrement s = .next { s with
        output := s.output ++ [0x00004300, v], free := n, lfo := { s.lfo with ph := ph, qp := qp } })
    ∧ ∃ n ph qp, exec .lfoIncrement s = .next { s with
        output := s.output ++ [0x00004400], free := n, lfo := { s.lfo with ph := ph, qp := qp } }

/-- R178: save copies (PH, QP) to the slot and restore copies it back, neither touching anything else; so a restore
after any number of advances brings the saved pair back. -/
def Obligations.SavedPhasesReplay : Prop :=
  (∀ s : State, exec .lfoSave s = .next { s with
      output := s.output ++ [0x00004500]
      lfo := { s.lfo with savPh := s.lfo.ph, savQp := s.lfo.qp } })
  ∧ (∀ s : State, exec .lfoRestore s = .next { s with
      output := s.output ++ [0x00004600]
      lfo := { s.lfo with ph := s.lfo.savPh, qp := s.lfo.savQp } })
  ∧ ∀ (s t u : State) (n : Nat), exec .lfoSave s = .next t → exec .lfoRestore (State.lfoIncrement^[n] t) = .next u →
      u.lfo.ph = s.lfo.ph ∧ u.lfo.qp = s.lfo.qp ∧ u.lfo.inc = s.lfo.inc

/-- R180 to R183: over [0, 1) every waveform has the value of its formula, and stays in [−1, 1]. -/
def Obligations.WaveformsStayInRange : Prop :=
  ∀ (nan : Word) (wf : Waveform) (p : Word), inUnit p = true →
    wave nan wf p = Spec.waveformAt nan wf p
    ∧ fle 0xBF800000 (wave nan wf p) = true ∧ fle (wave nan wf p) 0x3F800000 = true

/-! ## Invariants and whole-machine rules -/

/-- R33, R63: every step keeps CAP, W and every stored sample of every line inside R33's bounds. That the storage is a
list in canonical form, which every step keeps, is the model's own representation (log entry 6, DESIGN CHOICE). -/
def Obligations.StepKeepsStorageCanonical : Prop :=
  ∀ s t : State, s.storageOk → s.configOk → step s = .next t → t.storageOk

/-- R23: every step keeps the configuration registers in their ranges. -/
def Obligations.StepKeepsConfigurationRanges : Prop :=
  ∀ s t : State, s.configOk → step s = .next t → t.configOk

/-- R27: every step keeps an idle ramp at its target. -/
def Obligations.StepKeepsIdleRampsSettled : Prop :=
  ∀ s t : State, s.rampsOk → step s = .next t → t.rampsOk

/-- R31 (log entry 15: while no model fault is recorded): every step keeps INC inside (−1, 1) and the phases in
[0, 1). -/
def Obligations.StepKeepsLfoInRange : Prop :=
  ∀ s t : State, s.lfoOk → step s = .next t → t.lfoOk

/-- R341 with R23, R27, R31, R33: the state right after reset meets every invariant, for any open parameters. -/
def Obligations.ResetMeetsEveryInvariant : Prop :=
  ∀ p : Params, (State.resetWith p).storageOk ∧ (State.resetWith p).configOk ∧ (State.resetWith p).rampsOk
    ∧ (State.resetWith p).lfoOk

/-- R341: the reset value of every register. -/
def Obligations.ResetValuesOfEveryRegister : Prop :=
  ∀ p : Params, ∀ s : State, s = State.resetWith p →
    s.life = .unconfigured
    ∧ s.cfg = { sr := 0, nch := 0, maxFrames := 0, maxDms := 0, spm := 0, wf := .sine }
    ∧ (∀ k : RampKey, s.ramp k = { cur := 0, tgt := 0, step := 0, rem := 0 })
    ∧ s.rate = 0 ∧ s.negFb = false ∧ s.stereo = false
    ∧ s.lfo = { ph := 0, qp := 0x3E800000, inc := 0, savPh := 0, savQp := 0x3E800000 }
    ∧ s.bypPend = false ∧ s.bypAct = false
    ∧ (∀ c, (s.line c).cap = 1 ∧ (s.line c).w = 0 ∧ (s.line c).sample 0 = 0x00000000)
    ∧ s.sticky = 0 ∧ s.faults = []

/-- R340: under reset a word is not accepted and a step changes nothing; the release gives the reset values, discards
what was partly received with no response and empties FAULTS. That responses already sent stay sent and that the count
of free values goes on are the model's choices (log entries 3 and 7). -/
def Obligations.ResetInputDiscardsPartialCommand : Prop :=
  ∀ (s : State) (ws : List Word),
    (s.assertReset.deliver ws = s.assertReset) ∧ step s.assertReset = .next s.assertReset
    ∧ s.assertReset.releaseReset = { State.resetWith s.par with output := s.output, free := s.free }
    ∧ s.assertReset.releaseReset.input = [] ∧ s.assertReset.releaseReset.faults = []

/-- R42, R311: a step removes no model fault, and adds one only where it stored an increment out of range, set LFO_RANGE
and ran LFO_SETFREQ, PARAM_SET Rate or CONFIGURE. -/
def Obligations.ModelFaultsOnlyGrow : Prop :=
  ∀ s t : State, step s = .next t →
    (∀ r ∈ s.faults, r ∈ t.faults)
    ∧ (t.faults ≠ s.faults →
        Spec.incBad t.lfo.inc ∧ t.sticky.getLsbD 5 = true
        ∧ ∃ i rest, s.fetch = .command i rest
            ∧ ((∃ f, i = .lfoSetFreq f) ∨ (∃ v dur, i = .paramSet 1 v dur)
                ∨ ∃ k sr nch mf mdms, i = .configure k sr nch mf mdms))

/-- R20, R21, R23, R25, R28 to R30, R32, R33, R40 to R42: each register of 10_state.md is written only by the commands
its rules name. The sticky bits of the rejections come with a response that is their code alone, and only STATUS_CLEAR
clears a sticky bit. That the open parameters are a field that no step writes is the model's choice (log entry 2). -/
def Obligations.RegistersHaveTheirOnlyWriters : Prop :=
  ∀ s t : State, step s = .next t →
    t.par = s.par
    ∧ (t.cfg ≠ s.cfg → Spec.Runs s fun i => ∃ k sr nch mf mdms, i = .configure k sr nch mf mdms)
    ∧ (t.life ≠ s.life → Spec.Runs s fun i => i = .release ∨ ∃ k sr nch mf mdms, i = .configure k sr nch mf mdms)
    ∧ (∀ k rk, (k, rk) ∈ Spec.rampKeys → t.ramp rk ≠ s.ramp rk → Spec.Runs s fun i =>
        (∃ v dur, i = .paramSet k v dur) ∨ (∃ v d, i = .rpSet k v d) ∨ i = .rpFrameValue k ∨ ∃ xs, i = .frame xs)
    ∧ (t.rate ≠ s.rate → Spec.Runs s fun i => ∃ v dur, i = .paramSet 1 v dur)
    ∧ (t.negFb ≠ s.negFb → Spec.Runs s fun i => ∃ v dur, i = .paramSet 6 v dur)
    ∧ (t.stereo ≠ s.stereo → Spec.Runs s fun i => ∃ v dur, i = .paramSet 7 v dur)
    ∧ (t.lfo.ph ≠ s.lfo.ph ∨ t.lfo.qp ≠ s.lfo.qp → Spec.Runs s fun i =>
        i = .lfoValueAndIncrement ∨ i = .lfoIncrement ∨ i = .lfoRestore ∨ ∃ xs, i = .frame xs)
    ∧ (t.lfo.inc ≠ s.lfo.inc → Spec.Runs s Spec.SetsIncrement)
    ∧ (t.lfo.savPh ≠ s.lfo.savPh ∨ t.lfo.savQp ≠ s.lfo.savQp → Spec.Runs s fun i => i = .lfoSave)
    ∧ (t.bypPend ≠ s.bypPend → Spec.Runs s fun i => ∃ b, i = .setBypass b)
    ∧ (t.bypAct ≠ s.bypAct → Spec.Runs s fun i => i = .blockBegin)
    ∧ (∀ c, t.line c ≠ s.line c → Spec.Runs s fun i =>
        i = .release ∨ (∃ k sr nch mf mdms, i = .configure k sr nch mf mdms ∧ c < nch.toNat)
        ∨ (∃ ch n, i = .dlResize ch n ∧ ch.toNat = c)
        ∨ ((t.line c).cap = (s.line c).cap
            ∧ ((∃ ch x, i = .dlWrite ch x ∧ ch.toNat = c) ∨ ∃ xs, i = .frame xs ∧ c < xs.length)))
    ∧ (∀ b < 6, s.sticky.getLsbD b = true → t.sticky.getLsbD b = false →
        Spec.Runs s fun i => ∃ mask, i = .statusClear mask ∧ mask.getLsbD b = true)
    ∧ (∀ b < 4, s.sticky.getLsbD b = false → t.sticky.getLsbD b = true →
        ∃ w : Word, t.output = s.output ++ [w] ∧ (w.extractLsb' 0 8).toNat = b + 1)
    ∧ (s.sticky.getLsbD 4 = false → t.sticky.getLsbD 4 = true →
        Spec.Runs s fun i => (∃ c d, i = .dlRead c d) ∨ ∃ xs, i = .frame xs)
    ∧ (s.sticky.getLsbD 5 = false → t.sticky.getLsbD 5 = true → Spec.Runs s Spec.SetsIncrement)
    ∧ (t.faults ≠ s.faults → Spec.Runs s Spec.SetsIncrement)

/-! ## Arithmetic -/

/-- R11: nextPow2 is the least power of two at or above n, and F(n) is exact up to 2^24. -/
def Obligations.IntegerHelpersAreExact : Prop :=
  (∀ n, (∃ k, nextPow2 n = 2 ^ k) ∧ n ≤ nextPow2 n ∧ ∀ k, n ≤ 2 ^ k → nextPow2 n ≤ 2 ^ k)
  ∧ (∀ n ≤ 2 ^ 24, isFinite (ofUnsigned n) = true ∧ val (ofUnsigned n) = (n : Int) * 2 ^ 149)

/-- R12, R9: a magnitude n / d is rounded to the nearest binary32 magnitude, a tie to the even one, and to infinity
exactly from half a spacing above the greatest finite value on; the four operations on finite operands are that rounding
of the exact sum, difference, product and quotient, with the signs of IEEE 754; infinities, zero divisors and NaNs give
its infinities, zeros and NaNs, every NaN the one word NAN_OUT (log entry 11); the comparisons are those of the values,
false on a NaN. -/
def Obligations.RoundingIsNearestTiesToEven : Prop :=
  (∀ n d : Nat, 0 < d → Spec.IsRounding (BitVec.ofNat 32 (roundMag n d)) false n d)
  ∧ (∀ nan a b : Word, isFinite a = true → isFinite b = true →
      (val a + val b ≠ 0 →
        Spec.IsRounding (fadd nan a b) (decide (val a + val b < 0)) (val a + val b).natAbs 1)
      ∧ (val a + val b = 0 → fadd nan a b = Spec.signed (fsign a && fsign b) 0x00000000)
      ∧ (val a - val b ≠ 0 →
        Spec.IsRounding (fsub nan a b) (decide (val a - val b < 0)) (val a - val b).natAbs 1)
      ∧ (val a - val b = 0 → fsub nan a b = Spec.signed (fsign a && !fsign b) 0x00000000)
      ∧ Spec.IsRounding (fmul nan a b) (fsign a != fsign b) (mag a * mag b) (2 ^ 149)
      ∧ (mag b ≠ 0 → Spec.IsRounding (fdiv nan a b) (fsign a != fsign b) (mag a * 2 ^ 149) (mag b))
      ∧ (mag b = 0 → fdiv nan a b = if mag a = 0 then nan else Spec.signed (fsign a != fsign b) 0x7F800000))
  ∧ (∀ nan a b : Word, isInf a = true → isInf b = true →
      fadd nan a b = (if fsign a = fsign b then a else nan)
      ∧ fsub nan a b = (if fsign a = fsign b then nan else a)
      ∧ fmul nan a b = Spec.signed (fsign a != fsign b) 0x7F800000
      ∧ fdiv nan a b = nan)
  ∧ (∀ nan a b : Word, isInf a = true → isFinite b = true →
      fadd nan a b = a ∧ fadd nan b a = a ∧ fsub nan a b = a ∧ fsub nan b a = a ^^^ 0x80000000
      ∧ fmul nan a b = (if mag b = 0 then nan else Spec.signed (fsign a != fsign b) 0x7F800000)
      ∧ fmul nan b a = fmul nan a b
      ∧ fdiv nan a b = Spec.signed (fsign a != fsign b) 0x7F800000
      ∧ fdiv nan b a = Spec.signed (fsign a != fsign b) 0x00000000)
  ∧ (∀ nan a b : Word, isNaN a = true ∨ isNaN b = true →
      fadd nan a b = nan ∧ fsub nan a b = nan ∧ fmul nan a b = nan ∧ fdiv nan a b = nan
      ∧ flt a b = false ∧ fle a b = false ∧ feq a b = false)
  ∧ (∀ a b : Word, isNaN a = false → isNaN b = false →
      (flt a b = true ↔ val a < val b) ∧ (fle a b = true ↔ val a ≤ val b) ∧ (feq a b = true ↔ val a = val b))

/-- R12: nextDown gives the greatest value below its operand. -/
def Obligations.NextDownIsGreatestBelow : Prop :=
  ∀ a : Word, isNaN a = false → a ≠ 0xFF800000 →
    flt (nextDown a) a = true ∧ ∀ b : Word, flt b a = true → fle b (nextDown a) = true
end

