-- ==== Sys2Proof/Laws/Decode.lean ====
section
/-! SUPPORT. The fields of an encoded command word, and what the decoder reads from one. -/

namespace Sys2Proof

/-- Each bit of a command word (R81). -/
theorem getLsbD_commandWord (op : Mnemonic) (sel : Sel) (d : Bool) (i : Nat) :
    (commandWord op sel d).getLsbD i =
      if i < 15 then false else if i < 16 then d else if i < 24 then sel.getLsbD (i - 16)
      else op.opc.getLsbD (i - 24) := by
  have h : (commandWord op sel d).getLsbD i =
      BitVec.getLsbD (w := 8 + 8 + 1 + 15) (op.opc ++ sel ++ BitVec.ofBool d ++ 0#15) i := rfl
  rw [h, BitVec.getLsbD_append, BitVec.getLsbD_append, BitVec.getLsbD_append]
  by_cases h1 : i < 15
  · simp [h1]
  · by_cases h2 : i < 16
    · have : i = 15 := by omega
      subst this
      simp
    · by_cases h3 : i < 24
      · have e1 : ¬ i - 15 < 1 := by omega
        simp [h1, h2, h3, e1, Nat.sub_sub]
        intro h8
        omega
      · have e1 : ¬ i - 15 < 1 := by omega
        simp [h1, h2, h3, e1, Nat.sub_sub]
        intro h8
        omega

theorem opcField_commandWord (op : Mnemonic) (sel : Sel) (d : Bool) :
    opcField (commandWord op sel d) = op.opc := by
  apply BitVec.eq_of_getLsbD_eq
  intro i hi
  simp only [opcField, BitVec.getLsbD_extractLsb', getLsbD_commandWord]
  have e1 : ¬ 24 + i < 15 := by omega
  have e2 : ¬ 24 + i < 16 := by omega
  have e3 : ¬ 24 + i < 24 := by omega
  have e4 : 24 + i - 24 = i := by omega
  simp [e1, e2, hi]

theorem selField_commandWord (op : Mnemonic) (sel : Sel) (d : Bool) :
    selField (commandWord op sel d) = sel := by
  apply BitVec.eq_of_getLsbD_eq
  intro i hi
  simp only [selField, BitVec.getLsbD_extractLsb', getLsbD_commandWord]
  have e1 : ¬ 16 + i < 15 := by omega
  have e3 : 16 + i < 24 := by omega
  simp [e1, e3, hi]

theorem dField_commandWord (op : Mnemonic) (sel : Sel) (d : Bool) :
    dField (commandWord op sel d) = d := by
  simp [dField, getLsbD_commandWord, -BitVec.getLsbD_eq_getElem]

theorem rsvField_commandWord (op : Mnemonic) (sel : Sel) (d : Bool) :
    rsvField (commandWord op sel d) = 0 := by
  apply BitVec.eq_of_getLsbD_eq
  intro i hi
  simp only [rsvField, BitVec.getLsbD_extractLsb', getLsbD_commandWord]
  simp [hi]

@[simp] theorem Mnemonic.ofOpc_opc (op : Mnemonic) : Mnemonic.ofOpc op.opc = some op := by
  cases op <;> rfl

/-- A command word whose D and SEL its opcode may use decodes to them (R98). -/
theorem decodeHeader_commandWord (op : Mnemonic) (sel : Sel) (d : Bool)
    (hd : d = true → op.usesD = true) (hs : sel ≠ 0 → op.usesSel = true) :
    decodeHeader (commandWord op sel d) = .ok { op := op, sel := sel, d := d } := by
  have h1 : (d && !op.usesD) = false := by
    cases d <;> simp_all
  have h2 : (decide (sel ≠ 0) && !op.usesSel) = false := by
    by_cases h : sel = 0 <;> simp_all
  simp only [decodeHeader, opcField_commandWord, selField_commandWord, dField_commandWord,
    rsvField_commandWord, Mnemonic.ofOpc_opc, checkFields, h1, h2]
  simp

/-- What the decoder takes from a stream whose first word is a legal command word. -/
theorem decode_cons_ok (n : Nat) (cw : Word) (ws : List Word) (h : Header) (hh : decodeHeader cw = .ok h) :
    decode n (cw :: ws) = takeOperands n h ws := by
  simp [decode, hh]

/-- What the decoder answers to an ILLEGAL word, whatever follows it (R88). -/
theorem decode_cons_error (n : Nat) (cw : Word) (ws : List Word) (e : DecodeError)
    (hh : decodeHeader cw = .error e) : decode n (cw :: ws) = .illegal e (opcField cw) ws := by
  simp [decode, hh]

end Sys2Proof
end

