-- ==== Sys2Proof/Laws/Float.lean ====
section
/-! SUPPORT. Small laws of the binary32 operations. -/

namespace Sys2Proof.Machine

/-- Each bit of a quiet NaN's word (R13). -/
theorem getLsbD_quietNaNWord (q : QuietNaN) (i : Nat) :
    (quietNaNWord q).getLsbD i =
      if i < 22 then q.payload.getLsbD i
      else if i - 22 < 1 then (1#1).getLsbD (i - 22)
      else if i - 22 - 1 < 8 then (0xFF#8).getLsbD (i - 22 - 1)
      else q.sign.getLsbD (i - 22 - 1 - 8) := by
  have h : (quietNaNWord q).getLsbD i =
      BitVec.getLsbD (w := 1 + 8 + 1 + 22) (q.sign ++ 0xFF#8 ++ 1#1 ++ q.payload) i := rfl
  rw [h, BitVec.getLsbD_append, BitVec.getLsbD_append, BitVec.getLsbD_append]

theorem isNaN_quietNaNWord (q : QuietNaN) : isNaN (quietNaNWord q) = true := by
  have he : (quietNaNWord q).extractLsb' 23 8 = 255#8 := by
    apply BitVec.eq_of_getLsbD_eq
    intro i hi
    rw [BitVec.getLsbD_extractLsb', getLsbD_quietNaNWord]
    have : i = 0 ∨ i = 1 ∨ i = 2 ∨ i = 3 ∨ i = 4 ∨ i = 5 ∨ i = 6 ∨ i = 7 := by omega
    rcases this with rfl | rfl | rfl | rfl | rfl | rfl | rfl | rfl <;> rfl
  have hf : ((quietNaNWord q).extractLsb' 0 23).getLsbD 22 = true := by
    rw [BitVec.getLsbD_extractLsb', getLsbD_quietNaNWord]
    rfl
  have hn : ((quietNaNWord q).extractLsb' 0 23).toNat ≠ 0 := by
    intro h0
    have : (quietNaNWord q).extractLsb' 0 23 = 0#23 := BitVec.eq_of_toNat_eq (by simpa using h0)
    rw [this] at hf
    exact absurd hf (by decide)
  have e1 : fexp (quietNaNWord q) = 255 := by rw [fexp, he]; rfl
  have e2 : ffrac (quietNaNWord q) ≠ 0 := hn
  rw [isNaN, e1]
  simp [e2]

/-- NAN_OUT is a NaN, whatever the parameters (R9). -/
theorem isNaN_nanWord (p : Params) : isNaN (nanWord p) = true := isNaN_quietNaNWord p.nanOut

theorem fneg_fneg (a : Word) : fneg (fneg a) = a := by
  simp [fneg]

theorem roundMag_le_infBits (n d : Nat) : roundMag n d ≤ infBits := Nat.min_le_right _ _

/-- Rounding to a whole number is off by at most half. -/
theorem roundDiv_error (n d : Nat) (hd : 0 < d) :
    2 * (roundDiv n d * d) ≤ 2 * n + d ∧ 2 * n ≤ 2 * (roundDiv n d * d) + d := by
  have h := Nat.div_add_mod n d
  have hm := Nat.mod_lt n hd
  have hmul : d * (n / d) = n / d * d := Nat.mul_comm _ _
  have hs : (n / d + 1) * d = n / d * d + d := by rw [Nat.add_mul, Nat.one_mul]
  unfold roundDiv
  split
  · constructor <;> omega
  · split
    · rw [hs]; constructor <;> omega
    · split
      · constructor <;> omega
      · rw [hs]; constructor <;> omega

/-- A multiple is rounded to its quotient. -/
theorem roundDiv_mul (k d : Nat) (hd : 0 < d) : roundDiv (k * d) d = k := by
  simp [roundDiv, hd]

end Sys2Proof.Machine
end

