-- ==== Sys2Proof/Laws/Memory.lean ====
section
/-! SUPPORT. The laws of sparse storage: a read after a write, and the canonical form kept by every write. -/

namespace Sys2Proof.Machine

variable {α : Type}

@[simp] theorem Memory.get_nil (d : α) (a : Nat) : Memory.get d [] a = d := rfl

theorem Memory.get_insert_same (d : α) (m : List (Nat × α)) (a : Nat) (v : α)
    (h : ∀ e ∈ m, e.1 ≠ a) : Memory.get d (Memory.insert m a v) a = v := by
  induction m with
  | nil => simp [Memory.insert, Memory.get]
  | cons e m ih =>
    have he : e.1 ≠ a := h e (by simp)
    simp only [Memory.insert]
    split
    · simp [Memory.get]
    · simp [Memory.get, he, ih fun x hx => h x (by simp [hx])]

theorem Memory.get_insert_other (d : α) (m : List (Nat × α)) (a b : Nat) (v : α) (h : b ≠ a) :
    Memory.get d (Memory.insert m a v) b = Memory.get d m b := by
  induction m with
  | nil => simp [Memory.insert, Memory.get, h.symm]
  | cons e m ih =>
    simp only [Memory.insert]
    split
    · simp [Memory.get, h.symm]
    · simp [Memory.get, ih]

theorem Memory.get_filter_other (d : α) (m : List (Nat × α)) (a b : Nat) (h : b ≠ a) :
    Memory.get d (m.filter fun e => e.1 ≠ a) b = Memory.get d m b := by
  induction m with
  | nil => rfl
  | cons e m ih =>
    by_cases he : e.1 = a
    · have : e.1 ≠ b := fun hb => h (hb.symm.trans he)
      simp_all [Memory.get]
    · simp [he, Memory.get] at *
      rw [ih]

theorem Memory.get_of_absent (d : α) (m : List (Nat × α)) (a : Nat) (h : ∀ e ∈ m, e.1 ≠ a) :
    Memory.get d m a = d := by
  induction m with
  | nil => rfl
  | cons e m ih =>
    simp [Memory.get, h e (by simp), ih fun x hx => h x (by simp [hx])]

theorem Memory.absent_filter (m : List (Nat × α)) (a : Nat) :
    ∀ e ∈ m.filter (fun e => e.1 ≠ a), e.1 ≠ a := by
  intro e he
  simpa using (List.mem_filter.mp he).2

/-- A read of the index just written gives the value written. -/
@[simp] theorem Memory.get_set_same [DecidableEq α] (d : α) (m : List (Nat × α)) (a : Nat) (v : α) :
    Memory.get d (Memory.set d m a v) a = v := by
  simp only [Memory.set]
  split
  · rename_i hv
    rw [hv]
    exact Memory.get_of_absent d _ a (Memory.absent_filter m a)
  · exact Memory.get_insert_same d _ a v (Memory.absent_filter m a)

/-- A write leaves every other index alone. -/
theorem Memory.get_set_other [DecidableEq α] (d : α) (m : List (Nat × α)) (a b : Nat) (v : α) (h : b ≠ a) :
    Memory.get d (Memory.set d m a v) b = Memory.get d m b := by
  simp only [Memory.set]
  split
  · exact Memory.get_filter_other d m a b h
  · rw [Memory.get_insert_other d _ a b v h]
    exact Memory.get_filter_other d m a b h

theorem Memory.mem_insert (m : List (Nat × α)) (a : Nat) (v : α) (e : Nat × α)
    (he : e ∈ Memory.insert m a v) : e = (a, v) ∨ e ∈ m := by
  induction m with
  | nil => simpa [Memory.insert] using he
  | cons x m ih =>
    simp only [Memory.insert] at he
    split at he
    · simpa using he
    · rcases List.mem_cons.mp he with rfl | h
      · exact .inr (by simp)
      · rcases ih h with h | h
        · exact .inl h
        · exact .inr (by simp [h])

/-- What a written storage lists: the entry written, or an entry listed before. -/
theorem Memory.mem_set [DecidableEq α] (d : α) (m : List (Nat × α)) (a : Nat) (v : α) (e : Nat × α)
    (he : e ∈ Memory.set d m a v) : e = (a, v) ∨ e ∈ m := by
  simp only [Memory.set] at he
  split at he
  · exact .inr (List.mem_filter.mp he).1
  · rcases Memory.mem_insert _ a v e he with h | h
    · exact .inl h
    · exact .inr (List.mem_filter.mp h).1

/-- Rising indices, said with every pair of entries. -/
theorem Memory.rising_iff (m : List (Nat × α)) :
    Memory.rising m = true ↔ m.Pairwise (fun x y => x.1 < y.1) := by
  induction m with
  | nil => simp [Memory.rising]
  | cons e m ih =>
    cases m with
    | nil => simp [Memory.rising]
    | cons f m =>
      simp only [Memory.rising, Bool.and_eq_true, decide_eq_true_eq, ih]
      constructor
      · rintro ⟨h1, h2⟩
        refine List.pairwise_cons.mpr ⟨fun x hx => ?_, h2⟩
        rcases List.mem_cons.mp hx with rfl | hx
        · exact h1
        · exact h1.trans ((List.pairwise_cons.mp h2).1 x hx)
      · intro h
        exact ⟨(List.pairwise_cons.mp h).1 f (by simp), (List.pairwise_cons.mp h).2⟩

theorem Memory.pairwise_insert (m : List (Nat × α)) (a : Nat) (v : α)
    (h : m.Pairwise fun x y => x.1 < y.1) (ha : ∀ e ∈ m, e.1 ≠ a) :
    (Memory.insert m a v).Pairwise fun x y => x.1 < y.1 := by
  induction m with
  | nil => simp [Memory.insert]
  | cons e m ih =>
    have hm := List.pairwise_cons.mp h
    have hea : e.1 ≠ a := ha e (by simp)
    simp only [Memory.insert]
    split
    · rename_i hlt
      refine List.pairwise_cons.mpr ⟨fun x hx => ?_, h⟩
      rcases List.mem_cons.mp hx with rfl | hx
      · exact hlt
      · exact Nat.lt_trans hlt (hm.1 x hx)
    · rename_i hlt
      refine List.pairwise_cons.mpr ⟨fun x hx => ?_, ih hm.2 fun x hx => ha x (by simp [hx])⟩
      rcases Memory.mem_insert m a v x hx with rfl | hx
      · exact Nat.lt_of_le_of_ne (Nat.not_lt.mp hlt) hea
      · exact hm.1 x hx

/-- Every write keeps the canonical form. -/
theorem Memory.wf_set [DecidableEq α] (d : α) (m : List (Nat × α)) (a : Nat) (v : α)
    (h : Memory.wf d m = true) : Memory.wf d (Memory.set d m a v) = true := by
  simp only [Memory.wf, Bool.and_eq_true, Memory.rising_iff, List.all_eq_true, decide_eq_true_eq] at h ⊢
  have hp := List.Pairwise.filter (fun e : Nat × α => decide (e.1 ≠ a)) h.1
  constructor
  · simp only [Memory.set]
    split
    · exact hp
    · exact Memory.pairwise_insert _ a v hp (Memory.absent_filter m a)
  · intro e he
    simp only [Memory.set] at he
    split at he
    · exact h.2 e (List.mem_filter.mp he).1
    · rename_i hv
      rcases Memory.mem_insert _ a v e he with rfl | he
      · exact hv
      · exact h.2 e (List.mem_filter.mp he).1

end Sys2Proof.Machine
end

