-- ==== Sys2Proof/Laws/State.lean ====
section
/-! SUPPORT. One lemma per field of State per named update: what the update leaves in the field. -/

namespace Sys2Proof.Machine

/-! ## flag -/

@[simp] theorem State.flag_par (s : State) (b : StickyBit) : (s.flag b).par = s.par := rfl
@[simp] theorem State.flag_rst (s : State) (b : StickyBit) : (s.flag b).rst = s.rst := rfl
@[simp] theorem State.flag_input (s : State) (b : StickyBit) : (s.flag b).input = s.input := rfl
@[simp] theorem State.flag_output (s : State) (b : StickyBit) : (s.flag b).output = s.output := rfl
@[simp] theorem State.flag_life (s : State) (b : StickyBit) : (s.flag b).life = s.life := rfl
@[simp] theorem State.flag_cfg (s : State) (b : StickyBit) : (s.flag b).cfg = s.cfg := rfl
@[simp] theorem State.flag_depth (s : State) (b : StickyBit) : (s.flag b).depth = s.depth := rfl
@[simp] theorem State.flag_delay (s : State) (b : StickyBit) : (s.flag b).delay = s.delay := rfl
@[simp] theorem State.flag_feedback (s : State) (b : StickyBit) : (s.flag b).feedback = s.feedback := rfl
@[simp] theorem State.flag_dryMix (s : State) (b : StickyBit) : (s.flag b).dryMix = s.dryMix := rfl
@[simp] theorem State.flag_wetMix (s : State) (b : StickyBit) : (s.flag b).wetMix = s.wetMix := rfl
@[simp] theorem State.flag_rate (s : State) (b : StickyBit) : (s.flag b).rate = s.rate := rfl
@[simp] theorem State.flag_negFb (s : State) (b : StickyBit) : (s.flag b).negFb = s.negFb := rfl
@[simp] theorem State.flag_stereo (s : State) (b : StickyBit) : (s.flag b).stereo = s.stereo := rfl
@[simp] theorem State.flag_lfo (s : State) (b : StickyBit) : (s.flag b).lfo = s.lfo := rfl
@[simp] theorem State.flag_bypPend (s : State) (b : StickyBit) : (s.flag b).bypPend = s.bypPend := rfl
@[simp] theorem State.flag_bypAct (s : State) (b : StickyBit) : (s.flag b).bypAct = s.bypAct := rfl
@[simp] theorem State.flag_lines (s : State) (b : StickyBit) : (s.flag b).lines = s.lines := rfl
@[simp] theorem State.flag_sticky (s : State) (b : StickyBit) : (s.flag b).sticky = s.sticky ||| b.mask := rfl
@[simp] theorem State.flag_faults (s : State) (b : StickyBit) : (s.flag b).faults = s.faults := rfl
@[simp] theorem State.flag_free (s : State) (b : StickyBit) : (s.flag b).free = s.free := rfl

/-! ## recordFault -/

@[simp] theorem State.recordFault_par (s : State) (r : Fault) : (s.recordFault r).par = s.par := rfl
@[simp] theorem State.recordFault_rst (s : State) (r : Fault) : (s.recordFault r).rst = s.rst := rfl
@[simp] theorem State.recordFault_input (s : State) (r : Fault) : (s.recordFault r).input = s.input := rfl
@[simp] theorem State.recordFault_output (s : State) (r : Fault) : (s.recordFault r).output = s.output := rfl
@[simp] theorem State.recordFault_life (s : State) (r : Fault) : (s.recordFault r).life = s.life := rfl
@[simp] theorem State.recordFault_cfg (s : State) (r : Fault) : (s.recordFault r).cfg = s.cfg := rfl
@[simp] theorem State.recordFault_depth (s : State) (r : Fault) : (s.recordFault r).depth = s.depth := rfl
@[simp] theorem State.recordFault_delay (s : State) (r : Fault) : (s.recordFault r).delay = s.delay := rfl
@[simp] theorem State.recordFault_feedback (s : State) (r : Fault) : (s.recordFault r).feedback = s.feedback := rfl
@[simp] theorem State.recordFault_dryMix (s : State) (r : Fault) : (s.recordFault r).dryMix = s.dryMix := rfl
@[simp] theorem State.recordFault_wetMix (s : State) (r : Fault) : (s.recordFault r).wetMix = s.wetMix := rfl
@[simp] theorem State.recordFault_rate (s : State) (r : Fault) : (s.recordFault r).rate = s.rate := rfl
@[simp] theorem State.recordFault_negFb (s : State) (r : Fault) : (s.recordFault r).negFb = s.negFb := rfl
@[simp] theorem State.recordFault_stereo (s : State) (r : Fault) : (s.recordFault r).stereo = s.stereo := rfl
@[simp] theorem State.recordFault_lfo (s : State) (r : Fault) : (s.recordFault r).lfo = s.lfo := rfl
@[simp] theorem State.recordFault_bypPend (s : State) (r : Fault) : (s.recordFault r).bypPend = s.bypPend := rfl
@[simp] theorem State.recordFault_bypAct (s : State) (r : Fault) : (s.recordFault r).bypAct = s.bypAct := rfl
@[simp] theorem State.recordFault_lines (s : State) (r : Fault) : (s.recordFault r).lines = s.lines := rfl
@[simp] theorem State.recordFault_sticky (s : State) (r : Fault) : (s.recordFault r).sticky = s.sticky := rfl
@[simp] theorem State.recordFault_faults (s : State) (r : Fault) :
    (s.recordFault r).faults = if r ∈ s.faults then s.faults else r :: s.faults := rfl
@[simp] theorem State.recordFault_free (s : State) (r : Fault) : (s.recordFault r).free = s.free := rfl

/-! ## draw -/

@[simp] theorem State.draw_par (s : State) : (s.draw.2).par = s.par := rfl
@[simp] theorem State.draw_rst (s : State) : (s.draw.2).rst = s.rst := rfl
@[simp] theorem State.draw_input (s : State) : (s.draw.2).input = s.input := rfl
@[simp] theorem State.draw_output (s : State) : (s.draw.2).output = s.output := rfl
@[simp] theorem State.draw_life (s : State) : (s.draw.2).life = s.life := rfl
@[simp] theorem State.draw_cfg (s : State) : (s.draw.2).cfg = s.cfg := rfl
@[simp] theorem State.draw_depth (s : State) : (s.draw.2).depth = s.depth := rfl
@[simp] theorem State.draw_delay (s : State) : (s.draw.2).delay = s.delay := rfl
@[simp] theorem State.draw_feedback (s : State) : (s.draw.2).feedback = s.feedback := rfl
@[simp] theorem State.draw_dryMix (s : State) : (s.draw.2).dryMix = s.dryMix := rfl
@[simp] theorem State.draw_wetMix (s : State) : (s.draw.2).wetMix = s.wetMix := rfl
@[simp] theorem State.draw_rate (s : State) : (s.draw.2).rate = s.rate := rfl
@[simp] theorem State.draw_negFb (s : State) : (s.draw.2).negFb = s.negFb := rfl
@[simp] theorem State.draw_stereo (s : State) : (s.draw.2).stereo = s.stereo := rfl
@[simp] theorem State.draw_lfo (s : State) : (s.draw.2).lfo = s.lfo := rfl
@[simp] theorem State.draw_bypPend (s : State) : (s.draw.2).bypPend = s.bypPend := rfl
@[simp] theorem State.draw_bypAct (s : State) : (s.draw.2).bypAct = s.bypAct := rfl
@[simp] theorem State.draw_lines (s : State) : (s.draw.2).lines = s.lines := rfl
@[simp] theorem State.draw_sticky (s : State) : (s.draw.2).sticky = s.sticky := rfl
@[simp] theorem State.draw_faults (s : State) : (s.draw.2).faults = s.faults := rfl
@[simp] theorem State.draw_free (s : State) : (s.draw.2).free = s.free + 1 := rfl

/-! ## emit -/

@[simp] theorem State.emit_par (s : State) (ws : List Word) : (s.emit ws).par = s.par := rfl
@[simp] theorem State.emit_rst (s : State) (ws : List Word) : (s.emit ws).rst = s.rst := rfl
@[simp] theorem State.emit_input (s : State) (ws : List Word) : (s.emit ws).input = s.input := rfl
@[simp] theorem State.emit_output (s : State) (ws : List Word) : (s.emit ws).output = s.output ++ ws := rfl
@[simp] theorem State.emit_life (s : State) (ws : List Word) : (s.emit ws).life = s.life := rfl
@[simp] theorem State.emit_cfg (s : State) (ws : List Word) : (s.emit ws).cfg = s.cfg := rfl
@[simp] theorem State.emit_depth (s : State) (ws : List Word) : (s.emit ws).depth = s.depth := rfl
@[simp] theorem State.emit_delay (s : State) (ws : List Word) : (s.emit ws).delay = s.delay := rfl
@[simp] theorem State.emit_feedback (s : State) (ws : List Word) : (s.emit ws).feedback = s.feedback := rfl
@[simp] theorem State.emit_dryMix (s : State) (ws : List Word) : (s.emit ws).dryMix = s.dryMix := rfl
@[simp] theorem State.emit_wetMix (s : State) (ws : List Word) : (s.emit ws).wetMix = s.wetMix := rfl
@[simp] theorem State.emit_rate (s : State) (ws : List Word) : (s.emit ws).rate = s.rate := rfl
@[simp] theorem State.emit_negFb (s : State) (ws : List Word) : (s.emit ws).negFb = s.negFb := rfl
@[simp] theorem State.emit_stereo (s : State) (ws : List Word) : (s.emit ws).stereo = s.stereo := rfl
@[simp] theorem State.emit_lfo (s : State) (ws : List Word) : (s.emit ws).lfo = s.lfo := rfl
@[simp] theorem State.emit_bypPend (s : State) (ws : List Word) : (s.emit ws).bypPend = s.bypPend := rfl
@[simp] theorem State.emit_bypAct (s : State) (ws : List Word) : (s.emit ws).bypAct = s.bypAct := rfl
@[simp] theorem State.emit_lines (s : State) (ws : List Word) : (s.emit ws).lines = s.lines := rfl
@[simp] theorem State.emit_sticky (s : State) (ws : List Word) : (s.emit ws).sticky = s.sticky := rfl
@[simp] theorem State.emit_faults (s : State) (ws : List Word) : (s.emit ws).faults = s.faults := rfl
@[simp] theorem State.emit_free (s : State) (ws : List Word) : (s.emit ws).free = s.free := rfl

/-! ## reject -/

@[simp] theorem State.reject_par (s : State) (code : RejectCode) (opc : BitVec 8) : (s.reject code opc).par = s.par := rfl
@[simp] theorem State.reject_rst (s : State) (code : RejectCode) (opc : BitVec 8) : (s.reject code opc).rst = s.rst := rfl
@[simp] theorem State.reject_input (s : State) (code : RejectCode) (opc : BitVec 8) : (s.reject code opc).input = s.input := rfl
@[simp] theorem State.reject_output (s : State) (code : RejectCode) (opc : BitVec 8) : (s.reject code opc).output = s.output ++ [ackWord code.number opc] := rfl
@[simp] theorem State.reject_life (s : State) (code : RejectCode) (opc : BitVec 8) : (s.reject code opc).life = s.life := rfl
@[simp] theorem State.reject_cfg (s : State) (code : RejectCode) (opc : BitVec 8) : (s.reject code opc).cfg = s.cfg := rfl
@[simp] theorem State.reject_depth (s : State) (code : RejectCode) (opc : BitVec 8) : (s.reject code opc).depth = s.depth := rfl
@[simp] theorem State.reject_delay (s : State) (code : RejectCode) (opc : BitVec 8) : (s.reject code opc).delay = s.delay := rfl
@[simp] theorem State.reject_feedback (s : State) (code : RejectCode) (opc : BitVec 8) : (s.reject code opc).feedback = s.feedback := rfl
@[simp] theorem State.reject_dryMix (s : State) (code : RejectCode) (opc : BitVec 8) : (s.reject code opc).dryMix = s.dryMix := rfl
@[simp] theorem State.reject_wetMix (s : State) (code : RejectCode) (opc : BitVec 8) : (s.reject code opc).wetMix = s.wetMix := rfl
@[simp] theorem State.reject_rate (s : State) (code : RejectCode) (opc : BitVec 8) : (s.reject code opc).rate = s.rate := rfl
@[simp] theorem State.reject_negFb (s : State) (code : RejectCode) (opc : BitVec 8) : (s.reject code opc).negFb = s.negFb := rfl
@[simp] theorem State.reject_stereo (s : State) (code : RejectCode) (opc : BitVec 8) : (s.reject code opc).stereo = s.stereo := rfl
@[simp] theorem State.reject_lfo (s : State) (code : RejectCode) (opc : BitVec 8) : (s.reject code opc).lfo = s.lfo := rfl
@[simp] theorem State.reject_bypPend (s : State) (code : RejectCode) (opc : BitVec 8) : (s.reject code opc).bypPend = s.bypPend := rfl
@[simp] theorem State.reject_bypAct (s : State) (code : RejectCode) (opc : BitVec 8) : (s.reject code opc).bypAct = s.bypAct := rfl
@[simp] theorem State.reject_lines (s : State) (code : RejectCode) (opc : BitVec 8) : (s.reject code opc).lines = s.lines := rfl
@[simp] theorem State.reject_sticky (s : State) (code : RejectCode) (opc : BitVec 8) : (s.reject code opc).sticky = s.sticky ||| code.sticky.mask := rfl
@[simp] theorem State.reject_faults (s : State) (code : RejectCode) (opc : BitVec 8) : (s.reject code opc).faults = s.faults := rfl
@[simp] theorem State.reject_free (s : State) (code : RejectCode) (opc : BitVec 8) : (s.reject code opc).free = s.free := rfl

/-! ## accept -/

@[simp] theorem State.accept_par (s : State) (opc : BitVec 8) (rs : List Word) : (s.accept opc rs).par = s.par := rfl
@[simp] theorem State.accept_rst (s : State) (opc : BitVec 8) (rs : List Word) : (s.accept opc rs).rst = s.rst := rfl
@[simp] theorem State.accept_input (s : State) (opc : BitVec 8) (rs : List Word) : (s.accept opc rs).input = s.input := rfl
@[simp] theorem State.accept_output (s : State) (opc : BitVec 8) (rs : List Word) : (s.accept opc rs).output = s.output ++ ackWord 0 opc :: rs := rfl
@[simp] theorem State.accept_life (s : State) (opc : BitVec 8) (rs : List Word) : (s.accept opc rs).life = s.life := rfl
@[simp] theorem State.accept_cfg (s : State) (opc : BitVec 8) (rs : List Word) : (s.accept opc rs).cfg = s.cfg := rfl
@[simp] theorem State.accept_depth (s : State) (opc : BitVec 8) (rs : List Word) : (s.accept opc rs).depth = s.depth := rfl
@[simp] theorem State.accept_delay (s : State) (opc : BitVec 8) (rs : List Word) : (s.accept opc rs).delay = s.delay := rfl
@[simp] theorem State.accept_feedback (s : State) (opc : BitVec 8) (rs : List Word) : (s.accept opc rs).feedback = s.feedback := rfl
@[simp] theorem State.accept_dryMix (s : State) (opc : BitVec 8) (rs : List Word) : (s.accept opc rs).dryMix = s.dryMix := rfl
@[simp] theorem State.accept_wetMix (s : State) (opc : BitVec 8) (rs : List Word) : (s.accept opc rs).wetMix = s.wetMix := rfl
@[simp] theorem State.accept_rate (s : State) (opc : BitVec 8) (rs : List Word) : (s.accept opc rs).rate = s.rate := rfl
@[simp] theorem State.accept_negFb (s : State) (opc : BitVec 8) (rs : List Word) : (s.accept opc rs).negFb = s.negFb := rfl
@[simp] theorem State.accept_stereo (s : State) (opc : BitVec 8) (rs : List Word) : (s.accept opc rs).stereo = s.stereo := rfl
@[simp] theorem State.accept_lfo (s : State) (opc : BitVec 8) (rs : List Word) : (s.accept opc rs).lfo = s.lfo := rfl
@[simp] theorem State.accept_bypPend (s : State) (opc : BitVec 8) (rs : List Word) : (s.accept opc rs).bypPend = s.bypPend := rfl
@[simp] theorem State.accept_bypAct (s : State) (opc : BitVec 8) (rs : List Word) : (s.accept opc rs).bypAct = s.bypAct := rfl
@[simp] theorem State.accept_lines (s : State) (opc : BitVec 8) (rs : List Word) : (s.accept opc rs).lines = s.lines := rfl
@[simp] theorem State.accept_sticky (s : State) (opc : BitVec 8) (rs : List Word) : (s.accept opc rs).sticky = s.sticky := rfl
@[simp] theorem State.accept_faults (s : State) (opc : BitVec 8) (rs : List Word) : (s.accept opc rs).faults = s.faults := rfl
@[simp] theorem State.accept_free (s : State) (opc : BitVec 8) (rs : List Word) : (s.accept opc rs).free = s.free := rfl

/-! ## clearSticky -/

@[simp] theorem State.clearSticky_par (s : State) (mask : Word) : (s.clearSticky mask).par = s.par := rfl
@[simp] theorem State.clearSticky_rst (s : State) (mask : Word) : (s.clearSticky mask).rst = s.rst := rfl
@[simp] theorem State.clearSticky_input (s : State) (mask : Word) : (s.clearSticky mask).input = s.input := rfl
@[simp] theorem State.clearSticky_output (s : State) (mask : Word) : (s.clearSticky mask).output = s.output := rfl
@[simp] theorem State.clearSticky_life (s : State) (mask : Word) : (s.clearSticky mask).life = s.life := rfl
@[simp] theorem State.clearSticky_cfg (s : State) (mask : Word) : (s.clearSticky mask).cfg = s.cfg := rfl
@[simp] theorem State.clearSticky_depth (s : State) (mask : Word) : (s.clearSticky mask).depth = s.depth := rfl
@[simp] theorem State.clearSticky_delay (s : State) (mask : Word) : (s.clearSticky mask).delay = s.delay := rfl
@[simp] theorem State.clearSticky_feedback (s : State) (mask : Word) : (s.clearSticky mask).feedback = s.feedback := rfl
@[simp] theorem State.clearSticky_dryMix (s : State) (mask : Word) : (s.clearSticky mask).dryMix = s.dryMix := rfl
@[simp] theorem State.clearSticky_wetMix (s : State) (mask : Word) : (s.clearSticky mask).wetMix = s.wetMix := rfl
@[simp] theorem State.clearSticky_rate (s : State) (mask : Word) : (s.clearSticky mask).rate = s.rate := rfl
@[simp] theorem State.clearSticky_negFb (s : State) (mask : Word) : (s.clearSticky mask).negFb = s.negFb := rfl
@[simp] theorem State.clearSticky_stereo (s : State) (mask : Word) : (s.clearSticky mask).stereo = s.stereo := rfl
@[simp] theorem State.clearSticky_lfo (s : State) (mask : Word) : (s.clearSticky mask).lfo = s.lfo := rfl
@[simp] theorem State.clearSticky_bypPend (s : State) (mask : Word) : (s.clearSticky mask).bypPend = s.bypPend := rfl
@[simp] theorem State.clearSticky_bypAct (s : State) (mask : Word) : (s.clearSticky mask).bypAct = s.bypAct := rfl
@[simp] theorem State.clearSticky_lines (s : State) (mask : Word) : (s.clearSticky mask).lines = s.lines := rfl
@[simp] theorem State.clearSticky_sticky (s : State) (mask : Word) : (s.clearSticky mask).sticky = s.sticky &&& ~~~(mask.setWidth 6) := rfl
@[simp] theorem State.clearSticky_faults (s : State) (mask : Word) : (s.clearSticky mask).faults = s.faults := rfl
@[simp] theorem State.clearSticky_free (s : State) (mask : Word) : (s.clearSticky mask).free = s.free := rfl

/-! ## consumed -/

@[simp] theorem State.consumed_par (s : State) (ws : List Word) : (s.consumed ws).par = s.par := rfl
@[simp] theorem State.consumed_rst (s : State) (ws : List Word) : (s.consumed ws).rst = s.rst := rfl
@[simp] theorem State.consumed_input (s : State) (ws : List Word) : (s.consumed ws).input = ws := rfl
@[simp] theorem State.consumed_output (s : State) (ws : List Word) : (s.consumed ws).output = s.output := rfl
@[simp] theorem State.consumed_life (s : State) (ws : List Word) : (s.consumed ws).life = s.life := rfl
@[simp] theorem State.consumed_cfg (s : State) (ws : List Word) : (s.consumed ws).cfg = s.cfg := rfl
@[simp] theorem State.consumed_depth (s : State) (ws : List Word) : (s.consumed ws).depth = s.depth := rfl
@[simp] theorem State.consumed_delay (s : State) (ws : List Word) : (s.consumed ws).delay = s.delay := rfl
@[simp] theorem State.consumed_feedback (s : State) (ws : List Word) : (s.consumed ws).feedback = s.feedback := rfl
@[simp] theorem State.consumed_dryMix (s : State) (ws : List Word) : (s.consumed ws).dryMix = s.dryMix := rfl
@[simp] theorem State.consumed_wetMix (s : State) (ws : List Word) : (s.consumed ws).wetMix = s.wetMix := rfl
@[simp] theorem State.consumed_rate (s : State) (ws : List Word) : (s.consumed ws).rate = s.rate := rfl
@[simp] theorem State.consumed_negFb (s : State) (ws : List Word) : (s.consumed ws).negFb = s.negFb := rfl
@[simp] theorem State.consumed_stereo (s : State) (ws : List Word) : (s.consumed ws).stereo = s.stereo := rfl
@[simp] theorem State.consumed_lfo (s : State) (ws : List Word) : (s.consumed ws).lfo = s.lfo := rfl
@[simp] theorem State.consumed_bypPend (s : State) (ws : List Word) : (s.consumed ws).bypPend = s.bypPend := rfl
@[simp] theorem State.consumed_bypAct (s : State) (ws : List Word) : (s.consumed ws).bypAct = s.bypAct := rfl
@[simp] theorem State.consumed_lines (s : State) (ws : List Word) : (s.consumed ws).lines = s.lines := rfl
@[simp] theorem State.consumed_sticky (s : State) (ws : List Word) : (s.consumed ws).sticky = s.sticky := rfl
@[simp] theorem State.consumed_faults (s : State) (ws : List Word) : (s.consumed ws).faults = s.faults := rfl
@[simp] theorem State.consumed_free (s : State) (ws : List Word) : (s.consumed ws).free = s.free := rfl

/-! ## setLine -/

@[simp] theorem State.setLine_par (s : State) (c : Nat) (l : DelayLine) : (s.setLine c l).par = s.par := rfl
@[simp] theorem State.setLine_rst (s : State) (c : Nat) (l : DelayLine) : (s.setLine c l).rst = s.rst := rfl
@[simp] theorem State.setLine_input (s : State) (c : Nat) (l : DelayLine) : (s.setLine c l).input = s.input := rfl
@[simp] theorem State.setLine_output (s : State) (c : Nat) (l : DelayLine) : (s.setLine c l).output = s.output := rfl
@[simp] theorem State.setLine_life (s : State) (c : Nat) (l : DelayLine) : (s.setLine c l).life = s.life := rfl
@[simp] theorem State.setLine_cfg (s : State) (c : Nat) (l : DelayLine) : (s.setLine c l).cfg = s.cfg := rfl
@[simp] theorem State.setLine_depth (s : State) (c : Nat) (l : DelayLine) : (s.setLine c l).depth = s.depth := rfl
@[simp] theorem State.setLine_delay (s : State) (c : Nat) (l : DelayLine) : (s.setLine c l).delay = s.delay := rfl
@[simp] theorem State.setLine_feedback (s : State) (c : Nat) (l : DelayLine) : (s.setLine c l).feedback = s.feedback := rfl
@[simp] theorem State.setLine_dryMix (s : State) (c : Nat) (l : DelayLine) : (s.setLine c l).dryMix = s.dryMix := rfl
@[simp] theorem State.setLine_wetMix (s : State) (c : Nat) (l : DelayLine) : (s.setLine c l).wetMix = s.wetMix := rfl
@[simp] theorem State.setLine_rate (s : State) (c : Nat) (l : DelayLine) : (s.setLine c l).rate = s.rate := rfl
@[simp] theorem State.setLine_negFb (s : State) (c : Nat) (l : DelayLine) : (s.setLine c l).negFb = s.negFb := rfl
@[simp] theorem State.setLine_stereo (s : State) (c : Nat) (l : DelayLine) : (s.setLine c l).stereo = s.stereo := rfl
@[simp] theorem State.setLine_lfo (s : State) (c : Nat) (l : DelayLine) : (s.setLine c l).lfo = s.lfo := rfl
@[simp] theorem State.setLine_bypPend (s : State) (c : Nat) (l : DelayLine) : (s.setLine c l).bypPend = s.bypPend := rfl
@[simp] theorem State.setLine_bypAct (s : State) (c : Nat) (l : DelayLine) : (s.setLine c l).bypAct = s.bypAct := rfl
@[simp] theorem State.setLine_lines (s : State) (c : Nat) (l : DelayLine) : (s.setLine c l).lines = Memory.set DelayLine.cleared s.lines c l := rfl
@[simp] theorem State.setLine_sticky (s : State) (c : Nat) (l : DelayLine) : (s.setLine c l).sticky = s.sticky := rfl
@[simp] theorem State.setLine_faults (s : State) (c : Nat) (l : DelayLine) : (s.setLine c l).faults = s.faults := rfl
@[simp] theorem State.setLine_free (s : State) (c : Nat) (l : DelayLine) : (s.setLine c l).free = s.free := rfl

/-! ## dlWrite -/

@[simp] theorem State.dlWrite_par (s : State) (c : Nat) (x : Word) : (s.dlWrite c x).par = s.par := rfl
@[simp] theorem State.dlWrite_rst (s : State) (c : Nat) (x : Word) : (s.dlWrite c x).rst = s.rst := rfl
@[simp] theorem State.dlWrite_input (s : State) (c : Nat) (x : Word) : (s.dlWrite c x).input = s.input := rfl
@[simp] theorem State.dlWrite_output (s : State) (c : Nat) (x : Word) : (s.dlWrite c x).output = s.output := rfl
@[simp] theorem State.dlWrite_life (s : State) (c : Nat) (x : Word) : (s.dlWrite c x).life = s.life := rfl
@[simp] theorem State.dlWrite_cfg (s : State) (c : Nat) (x : Word) : (s.dlWrite c x).cfg = s.cfg := rfl
@[simp] theorem State.dlWrite_depth (s : State) (c : Nat) (x : Word) : (s.dlWrite c x).depth = s.depth := rfl
@[simp] theorem State.dlWrite_delay (s : State) (c : Nat) (x : Word) : (s.dlWrite c x).delay = s.delay := rfl
@[simp] theorem State.dlWrite_feedback (s : State) (c : Nat) (x : Word) : (s.dlWrite c x).feedback = s.feedback := rfl
@[simp] theorem State.dlWrite_dryMix (s : State) (c : Nat) (x : Word) : (s.dlWrite c x).dryMix = s.dryMix := rfl
@[simp] theorem State.dlWrite_wetMix (s : State) (c : Nat) (x : Word) : (s.dlWrite c x).wetMix = s.wetMix := rfl
@[simp] theorem State.dlWrite_rate (s : State) (c : Nat) (x : Word) : (s.dlWrite c x).rate = s.rate := rfl
@[simp] theorem State.dlWrite_negFb (s : State) (c : Nat) (x : Word) : (s.dlWrite c x).negFb = s.negFb := rfl
@[simp] theorem State.dlWrite_stereo (s : State) (c : Nat) (x : Word) : (s.dlWrite c x).stereo = s.stereo := rfl
@[simp] theorem State.dlWrite_lfo (s : State) (c : Nat) (x : Word) : (s.dlWrite c x).lfo = s.lfo := rfl
@[simp] theorem State.dlWrite_bypPend (s : State) (c : Nat) (x : Word) : (s.dlWrite c x).bypPend = s.bypPend := rfl
@[simp] theorem State.dlWrite_bypAct (s : State) (c : Nat) (x : Word) : (s.dlWrite c x).bypAct = s.bypAct := rfl
@[simp] theorem State.dlWrite_lines (s : State) (c : Nat) (x : Word) :
    (s.dlWrite c x).lines = Memory.set DelayLine.cleared s.lines c ((s.line c).write x) := rfl
@[simp] theorem State.dlWrite_sticky (s : State) (c : Nat) (x : Word) : (s.dlWrite c x).sticky = s.sticky := rfl
@[simp] theorem State.dlWrite_faults (s : State) (c : Nat) (x : Word) : (s.dlWrite c x).faults = s.faults := rfl
@[simp] theorem State.dlWrite_free (s : State) (c : Nat) (x : Word) : (s.dlWrite c x).free = s.free := rfl

/-! ## dlResize -/

@[simp] theorem State.dlResize_par (s : State) (c n : Nat) : (s.dlResize c n).par = s.par := rfl
@[simp] theorem State.dlResize_rst (s : State) (c n : Nat) : (s.dlResize c n).rst = s.rst := rfl
@[simp] theorem State.dlResize_input (s : State) (c n : Nat) : (s.dlResize c n).input = s.input := rfl
@[simp] theorem State.dlResize_output (s : State) (c n : Nat) : (s.dlResize c n).output = s.output := rfl
@[simp] theorem State.dlResize_life (s : State) (c n : Nat) : (s.dlResize c n).life = s.life := rfl
@[simp] theorem State.dlResize_cfg (s : State) (c n : Nat) : (s.dlResize c n).cfg = s.cfg := rfl
@[simp] theorem State.dlResize_depth (s : State) (c n : Nat) : (s.dlResize c n).depth = s.depth := rfl
@[simp] theorem State.dlResize_delay (s : State) (c n : Nat) : (s.dlResize c n).delay = s.delay := rfl
@[simp] theorem State.dlResize_feedback (s : State) (c n : Nat) : (s.dlResize c n).feedback = s.feedback := rfl
@[simp] theorem State.dlResize_dryMix (s : State) (c n : Nat) : (s.dlResize c n).dryMix = s.dryMix := rfl
@[simp] theorem State.dlResize_wetMix (s : State) (c n : Nat) : (s.dlResize c n).wetMix = s.wetMix := rfl
@[simp] theorem State.dlResize_rate (s : State) (c n : Nat) : (s.dlResize c n).rate = s.rate := rfl
@[simp] theorem State.dlResize_negFb (s : State) (c n : Nat) : (s.dlResize c n).negFb = s.negFb := rfl
@[simp] theorem State.dlResize_stereo (s : State) (c n : Nat) : (s.dlResize c n).stereo = s.stereo := rfl
@[simp] theorem State.dlResize_lfo (s : State) (c n : Nat) : (s.dlResize c n).lfo = s.lfo := rfl
@[simp] theorem State.dlResize_bypPend (s : State) (c n : Nat) : (s.dlResize c n).bypPend = s.bypPend := rfl
@[simp] theorem State.dlResize_bypAct (s : State) (c n : Nat) : (s.dlResize c n).bypAct = s.bypAct := rfl
@[simp] theorem State.dlResize_lines (s : State) (c n : Nat) :
    (s.dlResize c n).lines = Memory.set DelayLine.cleared s.lines c (DelayLine.resized n) := rfl
@[simp] theorem State.dlResize_sticky (s : State) (c n : Nat) : (s.dlResize c n).sticky = s.sticky := rfl
@[simp] theorem State.dlResize_faults (s : State) (c n : Nat) : (s.dlResize c n).faults = s.faults := rfl
@[simp] theorem State.dlResize_free (s : State) (c n : Nat) : (s.dlResize c n).free = s.free := rfl

/-! ## releaseLines -/

@[simp] theorem State.releaseLines_par (s : State) : (s.releaseLines).par = s.par := rfl
@[simp] theorem State.releaseLines_rst (s : State) : (s.releaseLines).rst = s.rst := rfl
@[simp] theorem State.releaseLines_input (s : State) : (s.releaseLines).input = s.input := rfl
@[simp] theorem State.releaseLines_output (s : State) : (s.releaseLines).output = s.output := rfl
@[simp] theorem State.releaseLines_life (s : State) : (s.releaseLines).life = .unconfigured := rfl
@[simp] theorem State.releaseLines_cfg (s : State) : (s.releaseLines).cfg = s.cfg := rfl
@[simp] theorem State.releaseLines_depth (s : State) : (s.releaseLines).depth = s.depth := rfl
@[simp] theorem State.releaseLines_delay (s : State) : (s.releaseLines).delay = s.delay := rfl
@[simp] theorem State.releaseLines_feedback (s : State) : (s.releaseLines).feedback = s.feedback := rfl
@[simp] theorem State.releaseLines_dryMix (s : State) : (s.releaseLines).dryMix = s.dryMix := rfl
@[simp] theorem State.releaseLines_wetMix (s : State) : (s.releaseLines).wetMix = s.wetMix := rfl
@[simp] theorem State.releaseLines_rate (s : State) : (s.releaseLines).rate = s.rate := rfl
@[simp] theorem State.releaseLines_negFb (s : State) : (s.releaseLines).negFb = s.negFb := rfl
@[simp] theorem State.releaseLines_stereo (s : State) : (s.releaseLines).stereo = s.stereo := rfl
@[simp] theorem State.releaseLines_lfo (s : State) : (s.releaseLines).lfo = s.lfo := rfl
@[simp] theorem State.releaseLines_bypPend (s : State) : (s.releaseLines).bypPend = s.bypPend := rfl
@[simp] theorem State.releaseLines_bypAct (s : State) : (s.releaseLines).bypAct = s.bypAct := rfl
@[simp] theorem State.releaseLines_lines (s : State) : (s.releaseLines).lines = [] := rfl
@[simp] theorem State.releaseLines_sticky (s : State) : (s.releaseLines).sticky = s.sticky := rfl
@[simp] theorem State.releaseLines_faults (s : State) : (s.releaseLines).faults = s.faults := rfl
@[simp] theorem State.releaseLines_free (s : State) : (s.releaseLines).free = s.free := rfl

/-! ## lfoSave -/

@[simp] theorem State.lfoSave_par (s : State) : (s.lfoSave).par = s.par := rfl
@[simp] theorem State.lfoSave_rst (s : State) : (s.lfoSave).rst = s.rst := rfl
@[simp] theorem State.lfoSave_input (s : State) : (s.lfoSave).input = s.input := rfl
@[simp] theorem State.lfoSave_output (s : State) : (s.lfoSave).output = s.output := rfl
@[simp] theorem State.lfoSave_life (s : State) : (s.lfoSave).life = s.life := rfl
@[simp] theorem State.lfoSave_cfg (s : State) : (s.lfoSave).cfg = s.cfg := rfl
@[simp] theorem State.lfoSave_depth (s : State) : (s.lfoSave).depth = s.depth := rfl
@[simp] theorem State.lfoSave_delay (s : State) : (s.lfoSave).delay = s.delay := rfl
@[simp] theorem State.lfoSave_feedback (s : State) : (s.lfoSave).feedback = s.feedback := rfl
@[simp] theorem State.lfoSave_dryMix (s : State) : (s.lfoSave).dryMix = s.dryMix := rfl
@[simp] theorem State.lfoSave_wetMix (s : State) : (s.lfoSave).wetMix = s.wetMix := rfl
@[simp] theorem State.lfoSave_rate (s : State) : (s.lfoSave).rate = s.rate := rfl
@[simp] theorem State.lfoSave_negFb (s : State) : (s.lfoSave).negFb = s.negFb := rfl
@[simp] theorem State.lfoSave_stereo (s : State) : (s.lfoSave).stereo = s.stereo := rfl
@[simp] theorem State.lfoSave_lfo (s : State) :
    (s.lfoSave).lfo = { s.lfo with savPh := s.lfo.ph, savQp := s.lfo.qp } := rfl
@[simp] theorem State.lfoSave_bypPend (s : State) : (s.lfoSave).bypPend = s.bypPend := rfl
@[simp] theorem State.lfoSave_bypAct (s : State) : (s.lfoSave).bypAct = s.bypAct := rfl
@[simp] theorem State.lfoSave_lines (s : State) : (s.lfoSave).lines = s.lines := rfl
@[simp] theorem State.lfoSave_sticky (s : State) : (s.lfoSave).sticky = s.sticky := rfl
@[simp] theorem State.lfoSave_faults (s : State) : (s.lfoSave).faults = s.faults := rfl
@[simp] theorem State.lfoSave_free (s : State) : (s.lfoSave).free = s.free := rfl

/-! ## lfoRestore -/

@[simp] theorem State.lfoRestore_par (s : State) : (s.lfoRestore).par = s.par := rfl
@[simp] theorem State.lfoRestore_rst (s : State) : (s.lfoRestore).rst = s.rst := rfl
@[simp] theorem State.lfoRestore_input (s : State) : (s.lfoRestore).input = s.input := rfl
@[simp] theorem State.lfoRestore_output (s : State) : (s.lfoRestore).output = s.output := rfl
@[simp] theorem State.lfoRestore_life (s : State) : (s.lfoRestore).life = s.life := rfl
@[simp] theorem State.lfoRestore_cfg (s : State) : (s.lfoRestore).cfg = s.cfg := rfl
@[simp] theorem State.lfoRestore_depth (s : State) : (s.lfoRestore).depth = s.depth := rfl
@[simp] theorem State.lfoRestore_delay (s : State) : (s.lfoRestore).delay = s.delay := rfl
@[simp] theorem State.lfoRestore_feedback (s : State) : (s.lfoRestore).feedback = s.feedback := rfl
@[simp] theorem State.lfoRestore_dryMix (s : State) : (s.lfoRestore).dryMix = s.dryMix := rfl
@[simp] theorem State.lfoRestore_wetMix (s : State) : (s.lfoRestore).wetMix = s.wetMix := rfl
@[simp] theorem State.lfoRestore_rate (s : State) : (s.lfoRestore).rate = s.rate := rfl
@[simp] theorem State.lfoRestore_negFb (s : State) : (s.lfoRestore).negFb = s.negFb := rfl
@[simp] theorem State.lfoRestore_stereo (s : State) : (s.lfoRestore).stereo = s.stereo := rfl
@[simp] theorem State.lfoRestore_lfo (s : State) :
    (s.lfoRestore).lfo = { s.lfo with ph := s.lfo.savPh, qp := s.lfo.savQp } := rfl
@[simp] theorem State.lfoRestore_bypPend (s : State) : (s.lfoRestore).bypPend = s.bypPend := rfl
@[simp] theorem State.lfoRestore_bypAct (s : State) : (s.lfoRestore).bypAct = s.bypAct := rfl
@[simp] theorem State.lfoRestore_lines (s : State) : (s.lfoRestore).lines = s.lines := rfl
@[simp] theorem State.lfoRestore_sticky (s : State) : (s.lfoRestore).sticky = s.sticky := rfl
@[simp] theorem State.lfoRestore_faults (s : State) : (s.lfoRestore).faults = s.faults := rfl
@[simp] theorem State.lfoRestore_free (s : State) : (s.lfoRestore).free = s.free := rfl

/-! ## setRamp -/

@[simp] theorem State.setRamp_par (s : State) (k : RampKey) (r : Ramp) : (s.setRamp k r).par = s.par := by
  cases k <;> rfl
@[simp] theorem State.setRamp_rst (s : State) (k : RampKey) (r : Ramp) : (s.setRamp k r).rst = s.rst := by
  cases k <;> rfl
@[simp] theorem State.setRamp_input (s : State) (k : RampKey) (r : Ramp) : (s.setRamp k r).input = s.input := by
  cases k <;> rfl
@[simp] theorem State.setRamp_output (s : State) (k : RampKey) (r : Ramp) : (s.setRamp k r).output = s.output := by
  cases k <;> rfl
@[simp] theorem State.setRamp_life (s : State) (k : RampKey) (r : Ramp) : (s.setRamp k r).life = s.life := by
  cases k <;> rfl
@[simp] theorem State.setRamp_cfg (s : State) (k : RampKey) (r : Ramp) : (s.setRamp k r).cfg = s.cfg := by
  cases k <;> rfl
@[simp] theorem State.setRamp_depth (s : State) (k : RampKey) (r : Ramp) :
    (s.setRamp k r).depth = if k = .depth then r else s.depth := by cases k <;> rfl
@[simp] theorem State.setRamp_delay (s : State) (k : RampKey) (r : Ramp) :
    (s.setRamp k r).delay = if k = .delay then r else s.delay := by cases k <;> rfl
@[simp] theorem State.setRamp_feedback (s : State) (k : RampKey) (r : Ramp) :
    (s.setRamp k r).feedback = if k = .feedback then r else s.feedback := by cases k <;> rfl
@[simp] theorem State.setRamp_dryMix (s : State) (k : RampKey) (r : Ramp) :
    (s.setRamp k r).dryMix = if k = .dryMix then r else s.dryMix := by cases k <;> rfl
@[simp] theorem State.setRamp_wetMix (s : State) (k : RampKey) (r : Ramp) :
    (s.setRamp k r).wetMix = if k = .wetMix then r else s.wetMix := by cases k <;> rfl
@[simp] theorem State.setRamp_rate (s : State) (k : RampKey) (r : Ramp) : (s.setRamp k r).rate = s.rate := by
  cases k <;> rfl
@[simp] theorem State.setRamp_negFb (s : State) (k : RampKey) (r : Ramp) : (s.setRamp k r).negFb = s.negFb := by
  cases k <;> rfl
@[simp] theorem State.setRamp_stereo (s : State) (k : RampKey) (r : Ramp) : (s.setRamp k r).stereo = s.stereo := by
  cases k <;> rfl
@[simp] theorem State.setRamp_lfo (s : State) (k : RampKey) (r : Ramp) : (s.setRamp k r).lfo = s.lfo := by
  cases k <;> rfl
@[simp] theorem State.setRamp_bypPend (s : State) (k : RampKey) (r : Ramp) : (s.setRamp k r).bypPend = s.bypPend := by
  cases k <;> rfl
@[simp] theorem State.setRamp_bypAct (s : State) (k : RampKey) (r : Ramp) : (s.setRamp k r).bypAct = s.bypAct := by
  cases k <;> rfl
@[simp] theorem State.setRamp_lines (s : State) (k : RampKey) (r : Ramp) : (s.setRamp k r).lines = s.lines := by
  cases k <;> rfl
@[simp] theorem State.setRamp_sticky (s : State) (k : RampKey) (r : Ramp) : (s.setRamp k r).sticky = s.sticky := by
  cases k <;> rfl
@[simp] theorem State.setRamp_faults (s : State) (k : RampKey) (r : Ramp) : (s.setRamp k r).faults = s.faults := by
  cases k <;> rfl
@[simp] theorem State.setRamp_free (s : State) (k : RampKey) (r : Ramp) : (s.setRamp k r).free = s.free := by
  cases k <;> rfl

@[simp] theorem State.ramp_setRamp_same (s : State) (k : RampKey) (r : Ramp) : (s.setRamp k r).ramp k = r := by
  cases k <;> rfl

theorem State.ramp_setRamp_other (s : State) (k j : RampKey) (r : Ramp) (h : j ≠ k) :
    (s.setRamp k r).ramp j = s.ramp j := by
  cases k <;> cases j <;> first | rfl | exact absurd rfl h

/-! ## lfoIncrement -/

@[simp] theorem State.lfoIncrement_par (s : State) : s.lfoIncrement.par = s.par := by
  unfold State.lfoIncrement; split <;> rfl
@[simp] theorem State.lfoIncrement_rst (s : State) : s.lfoIncrement.rst = s.rst := by
  unfold State.lfoIncrement; split <;> rfl
@[simp] theorem State.lfoIncrement_input (s : State) : s.lfoIncrement.input = s.input := by
  unfold State.lfoIncrement; split <;> rfl
@[simp] theorem State.lfoIncrement_output (s : State) : s.lfoIncrement.output = s.output := by
  unfold State.lfoIncrement; split <;> rfl
@[simp] theorem State.lfoIncrement_life (s : State) : s.lfoIncrement.life = s.life := by
  unfold State.lfoIncrement; split <;> rfl
@[simp] theorem State.lfoIncrement_cfg (s : State) : s.lfoIncrement.cfg = s.cfg := by
  unfold State.lfoIncrement; split <;> rfl
@[simp] theorem State.lfoIncrement_depth (s : State) : s.lfoIncrement.depth = s.depth := by
  unfold State.lfoIncrement; split <;> rfl
@[simp] theorem State.lfoIncrement_delay (s : State) : s.lfoIncrement.delay = s.delay := by
  unfold State.lfoIncrement; split <;> rfl
@[simp] theorem State.lfoIncrement_feedback (s : State) : s.lfoIncrement.feedback = s.feedback := by
  unfold State.lfoIncrement; split <;> rfl
@[simp] theorem State.lfoIncrement_dryMix (s : State) : s.lfoIncrement.dryMix = s.dryMix := by
  unfold State.lfoIncrement; split <;> rfl
@[simp] theorem State.lfoIncrement_wetMix (s : State) : s.lfoIncrement.wetMix = s.wetMix := by
  unfold State.lfoIncrement; split <;> rfl
@[simp] theorem State.lfoIncrement_rate (s : State) : s.lfoIncrement.rate = s.rate := by
  unfold State.lfoIncrement; split <;> rfl
@[simp] theorem State.lfoIncrement_negFb (s : State) : s.lfoIncrement.negFb = s.negFb := by
  unfold State.lfoIncrement; split <;> rfl
@[simp] theorem State.lfoIncrement_stereo (s : State) : s.lfoIncrement.stereo = s.stereo := by
  unfold State.lfoIncrement; split <;> rfl
@[simp] theorem State.lfoIncrement_bypPend (s : State) : s.lfoIncrement.bypPend = s.bypPend := by
  unfold State.lfoIncrement; split <;> rfl
@[simp] theorem State.lfoIncrement_bypAct (s : State) : s.lfoIncrement.bypAct = s.bypAct := by
  unfold State.lfoIncrement; split <;> rfl
@[simp] theorem State.lfoIncrement_lines (s : State) : s.lfoIncrement.lines = s.lines := by
  unfold State.lfoIncrement; split <;> rfl
@[simp] theorem State.lfoIncrement_sticky (s : State) : s.lfoIncrement.sticky = s.sticky := by
  unfold State.lfoIncrement; split <;> rfl
@[simp] theorem State.lfoIncrement_faults (s : State) : s.lfoIncrement.faults = s.faults := by
  unfold State.lfoIncrement; split <;> rfl

/-! ## setInc -/

@[simp] theorem State.setInc_par (s : State) (x : Word) : (s.setInc x).par = s.par := by
  simp only [State.setInc]; split <;> rfl
@[simp] theorem State.setInc_rst (s : State) (x : Word) : (s.setInc x).rst = s.rst := by
  simp only [State.setInc]; split <;> rfl
@[simp] theorem State.setInc_input (s : State) (x : Word) : (s.setInc x).input = s.input := by
  simp only [State.setInc]; split <;> rfl
@[simp] theorem State.setInc_output (s : State) (x : Word) : (s.setInc x).output = s.output := by
  simp only [State.setInc]; split <;> rfl
@[simp] theorem State.setInc_life (s : State) (x : Word) : (s.setInc x).life = s.life := by
  simp only [State.setInc]; split <;> rfl
@[simp] theorem State.setInc_cfg (s : State) (x : Word) : (s.setInc x).cfg = s.cfg := by
  simp only [State.setInc]; split <;> rfl
@[simp] theorem State.setInc_depth (s : State) (x : Word) : (s.setInc x).depth = s.depth := by
  simp only [State.setInc]; split <;> rfl
@[simp] theorem State.setInc_delay (s : State) (x : Word) : (s.setInc x).delay = s.delay := by
  simp only [State.setInc]; split <;> rfl
@[simp] theorem State.setInc_feedback (s : State) (x : Word) : (s.setInc x).feedback = s.feedback := by
  simp only [State.setInc]; split <;> rfl
@[simp] theorem State.setInc_dryMix (s : State) (x : Word) : (s.setInc x).dryMix = s.dryMix := by
  simp only [State.setInc]; split <;> rfl
@[simp] theorem State.setInc_wetMix (s : State) (x : Word) : (s.setInc x).wetMix = s.wetMix := by
  simp only [State.setInc]; split <;> rfl
@[simp] theorem State.setInc_rate (s : State) (x : Word) : (s.setInc x).rate = s.rate := by
  simp only [State.setInc]; split <;> rfl
@[simp] theorem State.setInc_negFb (s : State) (x : Word) : (s.setInc x).negFb = s.negFb := by
  simp only [State.setInc]; split <;> rfl
@[simp] theorem State.setInc_stereo (s : State) (x : Word) : (s.setInc x).stereo = s.stereo := by
  simp only [State.setInc]; split <;> rfl
@[simp] theorem State.setInc_bypPend (s : State) (x : Word) : (s.setInc x).bypPend = s.bypPend := by
  simp only [State.setInc]; split <;> rfl
@[simp] theorem State.setInc_bypAct (s : State) (x : Word) : (s.setInc x).bypAct = s.bypAct := by
  simp only [State.setInc]; split <;> rfl
@[simp] theorem State.setInc_lines (s : State) (x : Word) : (s.setInc x).lines = s.lines := by
  simp only [State.setInc]; split <;> rfl
@[simp] theorem State.setInc_free (s : State) (x : Word) : (s.setInc x).free = s.free := by
  simp only [State.setInc]; split <;> rfl

@[simp] theorem State.setInc_lfo (s : State) (x : Word) : (s.setInc x).lfo = { s.lfo with inc := x } := by
  simp only [State.setInc]; split <;> rfl

/-! ## The release of the reset input -/

@[simp] theorem State.releaseReset_par (s : State) : s.releaseReset.par = s.par := rfl
@[simp] theorem State.releaseReset_output (s : State) : s.releaseReset.output = s.output := rfl
@[simp] theorem State.releaseReset_free (s : State) : s.releaseReset.free = s.free := rfl
@[simp] theorem State.releaseReset_input (s : State) : s.releaseReset.input = [] := rfl
@[simp] theorem State.releaseReset_faults (s : State) : s.releaseReset.faults = [] := rfl

end Sys2Proof.Machine
end

