-- ==== Sys2Proof/Laws/Ops.lean ====
section
/-! SUPPORT. One lemma per shared operation that says all it can do, to be cited instead of unfolding it. -/

namespace Sys2Proof.Machine

/-! ## Checks -/

theorem needReady_ready (m : Mnemonic) (s : State) (k : Host.Outcome State Fault Refusal)
    (h : s.life = .ready) : needReady m s k = k := by simp [needReady, h]

theorem needReady_unconfigured (m : Mnemonic) (s : State) (k : Host.Outcome State Fault Refusal)
    (h : s.life = .unconfigured) : needReady m s k = rejected .notReady m s := by simp [needReady, h]

theorem needChannel_below (m : Mnemonic) (c : Sel) (s : State) (k : Host.Outcome State Fault Refusal)
    (h : c.toNat < s.cfg.nch.toNat) : needChannel m c s k = k := by simp [needChannel, h]

theorem needChannel_above (m : Mnemonic) (c : Sel) (s : State) (k : Host.Outcome State Fault Refusal)
    (h : s.cfg.nch.toNat ≤ c.toNat) : needChannel m c s k = rejected .badSel m s := by
  simp [needChannel, Nat.not_lt.mpr h]

/-! ## Delay lines -/

@[simp] theorem State.line_setLine_same (s : State) (c : Nat) (l : DelayLine) : (s.setLine c l).line c = l := by
  simp [State.line]

theorem State.line_setLine_other (s : State) (c e : Nat) (l : DelayLine) (h : e ≠ c) :
    (s.setLine c l).line e = s.line e := by
  simp [State.line, Memory.get_set_other _ _ _ _ _ h]

@[simp] theorem DelayLine.write_cap (l : DelayLine) (x : Word) : (l.write x).cap = l.cap := rfl

/-- DLWrite's one sample (R110). -/
@[simp] theorem DelayLine.sample_write_same (l : DelayLine) (x : Word) : (l.write x).sample l.w.toNat = x := by
  simp [DelayLine.sample, DelayLine.write]

theorem DelayLine.sample_write_other (l : DelayLine) (x : Word) (j : Nat) (h : j ≠ l.w.toNat) :
    (l.write x).sample j = l.sample j := by
  simp [DelayLine.sample, DelayLine.write, Memory.get_set_other _ _ _ _ _ h]

@[simp] theorem DelayLine.sample_resized (n j : Nat) : (DelayLine.resized n).sample j = 0#32 := rfl

/-- DLRead changes nothing but DLY_CLAMP (R70, R113). -/
theorem State.dlRead_state (s : State) (c : Nat) (d : Word) :
    (s.dlRead c d).2 = if ((s.line c).clampDelay d).2 then s.flag .dlyClamp else s := rfl

/-- What resizing every line below a count leaves (R272 step 2). -/
theorem State.line_resizeBelow (s : State) (n k c : Nat) :
    (s.resizeBelow n k).line c = if c < k then DelayLine.resized n else s.line c := by
  induction k with
  | zero => simp [State.resizeBelow]
  | succ k ih =>
    by_cases h : c = k
    · subst h
      simp [State.resizeBelow, State.dlResize]
    · simp only [State.resizeBelow, State.dlResize, State.line_setLine_other _ _ _ _ h, ih]
      have : (c < k + 1) = (c < k) := by simp; omega
      simp [this]

theorem State.resizeBelow_lines_only (s : State) (n k : Nat) :
    s.resizeBelow n k = { s with lines := (s.resizeBelow n k).lines } := by
  induction k with
  | zero => rfl
  | succ k ih =>
    simp only [State.resizeBelow, State.dlResize, State.setLine]
    rw [ih]

/-! ## LFO -/

theorem State.lfoOut_specified (s : State) (p : Word) (hf : s.faults = []) (hp : inUnit p = true) :
    s.lfoOut p = (wave s.nan s.cfg.wf p, s) := by
  simp [State.lfoOut, State.lfoUnspecified, hf, hp]

theorem State.lfoOut_unspecified (s : State) (p : Word) (hf : s.faults ≠ []) : s.lfoOut p = s.draw := by
  simp [State.lfoOut, State.lfoUnspecified, hf]

/-- A peek changes nothing but the count of free values. -/
theorem State.lfoOut_state (s : State) (p : Word) :
    (s.lfoOut p).2 = s ∨ (s.lfoOut p).2 = { s with free := s.free + 1 } := by
  unfold State.lfoOut
  split
  · exact .inl rfl
  · exact .inr rfl

theorem State.lfoIncrement_specified (s : State) (hf : s.faults = []) :
    s.lfoIncrement =
      { s with
        lfo := { s.lfo with
          ph := lfoAdvance s.nan s.lfo.inc s.lfo.ph
          qp := lfoAdvance s.nan s.lfo.inc s.lfo.qp } } := by
  simp [State.lfoIncrement, State.lfoUnspecified, hf]

theorem State.setInc_inRange (s : State) (x : Word) (h : incOutOfRange x = false) :
    s.setInc x = { s with lfo := { s.lfo with inc := x } } := by
  simp [State.setInc, h]

theorem State.setInc_outOfRange (s : State) (x : Word) (h : incOutOfRange x = true) :
    s.setInc x =
      (({ s with lfo := { s.lfo with inc := x } } : State).flag .lfoRange).recordFault .lfoIncrementRange := by
  simp [State.setInc, h]

/-! ## The frame -/

/-- One channel of a frame changes the lines, STICKY and the count of free values, and nothing else. -/
theorem State.frameChannel_state (s : State) (g : FrameInputs) (c : Nat) (x : Word) :
    (s.frameChannel g c x).2 =
      { s with
        lines := (s.frameChannel g c x).2.lines
        sticky := (s.frameChannel g c x).2.sticky
        free := (s.frameChannel g c x).2.free } := by
  simp only [State.frameChannel, State.dlRead, State.dlWrite, State.setLine, State.draw, State.flag]
  split <;> split <;> rfl

/-- The channel loop changes the lines, STICKY and the count of free values, and nothing else. -/
theorem State.frameLoop_state (g : FrameInputs) (c : Nat) (xs : List Word) (s : State) :
    (State.frameLoop g c xs s).2 =
      { s with
        lines := (State.frameLoop g c xs s).2.lines
        sticky := (State.frameLoop g c xs s).2.sticky
        free := (State.frameLoop g c xs s).2.free } := by
  induction xs generalizing c s with
  | nil => rfl
  | cons x xs ih =>
    simp only [State.frameLoop]
    rw [ih, State.frameChannel_state]

/-- A frame has one output sample per input sample. -/
@[simp] theorem State.frameLoop_length (g : FrameInputs) (c : Nat) (xs : List Word) (s : State) :
    (State.frameLoop g c xs s).1.length = xs.length := by
  induction xs generalizing c s with
  | nil => rfl
  | cons x xs ih => simp [State.frameLoop, ih]

@[simp] theorem State.renderFrame_length (s : State) (xs : List Word) :
    (s.renderFrame xs).1.length = xs.length := by
  simp [State.renderFrame]

end Sys2Proof.Machine
end

