-- ==== Sys2Proof/Laws/PerInstr.lean ====
section
/-! SUPPORT. Statements about every command, made per constructor. -/

namespace Sys2Proof.Laws

/-- The command word of an encoded command decodes to its mnemonic, its SEL and its D (R81, R98). -/
def HeaderDecodes.Statement (i : Instr) : Prop :=
  decodeHeader (commandWord i.mnemonic i.sel i.dBit) =
    .ok { op := i.mnemonic, sel := i.sel, d := i.dBit }

theorem HeaderDecodes.nop : HeaderDecodes.Statement .nop :=
  decodeHeader_commandWord _ _ _ (fun h => nomatch h) (fun h => absurd rfl h)

theorem HeaderDecodes.configure (wf : Sel) (sr nch mf mdms : Word) : HeaderDecodes.Statement (.configure wf sr nch mf mdms) :=
  decodeHeader_commandWord _ _ _ (fun h => nomatch h) (fun _ => rfl)

theorem HeaderDecodes.release : HeaderDecodes.Statement .release :=
  decodeHeader_commandWord _ _ _ (fun h => nomatch h) (fun h => absurd rfl h)

theorem HeaderDecodes.statusRead : HeaderDecodes.Statement .statusRead :=
  decodeHeader_commandWord _ _ _ (fun h => nomatch h) (fun h => absurd rfl h)

theorem HeaderDecodes.statusClear (mask : Word) : HeaderDecodes.Statement (.statusClear mask) :=
  decodeHeader_commandWord _ _ _ (fun h => nomatch h) (fun h => absurd rfl h)

theorem HeaderDecodes.setBypass (b : Word) : HeaderDecodes.Statement (.setBypass b) :=
  decodeHeader_commandWord _ _ _ (fun h => nomatch h) (fun h => absurd rfl h)

theorem HeaderDecodes.blockBegin : HeaderDecodes.Statement .blockBegin :=
  decodeHeader_commandWord _ _ _ (fun h => nomatch h) (fun h => absurd rfl h)

theorem HeaderDecodes.paramSet (key : Sel) (v : Word) (dur : Option Word) : HeaderDecodes.Statement (.paramSet key v dur) :=
  decodeHeader_commandWord _ _ _ (fun _ => rfl) (fun _ => rfl)

theorem HeaderDecodes.paramGet (key : Sel) : HeaderDecodes.Statement (.paramGet key) :=
  decodeHeader_commandWord _ _ _ (fun h => nomatch h) (fun _ => rfl)

theorem HeaderDecodes.frame (xs : List Word) : HeaderDecodes.Statement (.frame xs) :=
  decodeHeader_commandWord _ _ _ (fun h => nomatch h) (fun h => absurd rfl h)

theorem HeaderDecodes.dlWrite (c : Sel) (x : Word) : HeaderDecodes.Statement (.dlWrite c x) :=
  decodeHeader_commandWord _ _ _ (fun h => nomatch h) (fun _ => rfl)

theorem HeaderDecodes.dlRead (c : Sel) (d : Word) : HeaderDecodes.Statement (.dlRead c d) :=
  decodeHeader_commandWord _ _ _ (fun h => nomatch h) (fun _ => rfl)

theorem HeaderDecodes.dlReadAt (c : Sel) (i : Word) : HeaderDecodes.Statement (.dlReadAt c i) :=
  decodeHeader_commandWord _ _ _ (fun h => nomatch h) (fun _ => rfl)

theorem HeaderDecodes.dlResize (c : Sel) (n : Word) : HeaderDecodes.Statement (.dlResize c n) :=
  decodeHeader_commandWord _ _ _ (fun h => nomatch h) (fun _ => rfl)

theorem HeaderDecodes.rpSet (key : Sel) (t d : Word) : HeaderDecodes.Statement (.rpSet key t d) :=
  decodeHeader_commandWord _ _ _ (fun h => nomatch h) (fun _ => rfl)

theorem HeaderDecodes.rpFrameValue (key : Sel) : HeaderDecodes.Statement (.rpFrameValue key) :=
  decodeHeader_commandWord _ _ _ (fun h => nomatch h) (fun _ => rfl)

theorem HeaderDecodes.rpGet (key : Sel) : HeaderDecodes.Statement (.rpGet key) :=
  decodeHeader_commandWord _ _ _ (fun h => nomatch h) (fun _ => rfl)

theorem HeaderDecodes.lfoSetFreq (f : Word) : HeaderDecodes.Statement (.lfoSetFreq f) :=
  decodeHeader_commandWord _ _ _ (fun h => nomatch h) (fun h => absurd rfl h)

theorem HeaderDecodes.lfoValue : HeaderDecodes.Statement .lfoValue :=
  decodeHeader_commandWord _ _ _ (fun h => nomatch h) (fun h => absurd rfl h)

theorem HeaderDecodes.lfoQuadValue : HeaderDecodes.Statement .lfoQuadValue :=
  decodeHeader_commandWord _ _ _ (fun h => nomatch h) (fun h => absurd rfl h)

theorem HeaderDecodes.lfoValueAndIncrement : HeaderDecodes.Statement .lfoValueAndIncrement :=
  decodeHeader_commandWord _ _ _ (fun h => nomatch h) (fun h => absurd rfl h)

theorem HeaderDecodes.lfoIncrement : HeaderDecodes.Statement .lfoIncrement :=
  decodeHeader_commandWord _ _ _ (fun h => nomatch h) (fun h => absurd rfl h)

theorem HeaderDecodes.lfoSave : HeaderDecodes.Statement .lfoSave :=
  decodeHeader_commandWord _ _ _ (fun h => nomatch h) (fun h => absurd rfl h)

theorem HeaderDecodes.lfoRestore : HeaderDecodes.Statement .lfoRestore :=
  decodeHeader_commandWord _ _ _ (fun h => nomatch h) (fun h => absurd rfl h)

end Sys2Proof.Laws
end

