-- ==== Sys2Proof/Laws/Step.lean ====
section
/-! SUPPORT. What one step can be: idle under reset, a command, an ILLEGAL word, or waiting. -/

namespace Sys2Proof.Machine

theorem step_of_command (s : State) (i : Instr) (rest : List Word) (hr : s.rst = false)
    (h : s.fetch = .command i rest) : step s = exec i (s.consumed rest) := by
  simp [step, hr, h]

theorem step_of_illegal (s : State) (why : DecodeError) (opc : BitVec 8) (rest : List Word) (hr : s.rst = false)
    (h : s.fetch = .illegal why opc rest) : step s = .next (s.rejectIllegal opc rest) := by
  simp [step, hr, h]

/-- Every step is one of these four; each later invariant is a case analysis of this. -/
theorem step_cases (s : State) :
    (s.rst = true ∧ step s = .next s)
    ∨ (∃ i rest, s.rst = false ∧ s.fetch = .command i rest ∧ step s = exec i (s.consumed rest))
    ∨ (∃ why opc rest, s.rst = false ∧ s.fetch = .illegal why opc rest
        ∧ step s = .next (s.rejectIllegal opc rest))
    ∨ (s.rst = false ∧ s.fetch = .incomplete ∧ step s = .next s) := by
  cases hr : s.rst with
  | true => exact .inl ⟨rfl, by simp [step, hr, State.idle]⟩
  | false =>
    cases hf : s.fetch with
    | command i rest => exact .inr (.inl ⟨i, rest, rfl, rfl, step_of_command s i rest hr hf⟩)
    | illegal why opc rest =>
      exact .inr (.inr (.inl ⟨why, opc, rest, rfl, rfl, step_of_illegal s why opc rest hr hf⟩))
    | incomplete => exact .inr (.inr (.inr ⟨rfl, rfl, by simp [step, hr, hf, State.idle]⟩))

end Sys2Proof.Machine
end

