-- ==== Sys2Proof/Machine/Assembler.lean ====
section
/-! DEFINITION. The assembler syntax of R100 to R102: one command a line, as a list of characters. It is a host-side
text form; no step reads it (D40, log entry 18). -/

namespace Sys2Proof.Machine

/-- The mnemonics as R96 spells them. -/
def mnemonicNames : List (String × Mnemonic) :=
  [("NOP", .nop), ("CONFIGURE", .configure), ("RELEASE", .release), ("STATUS_READ", .statusRead),
   ("STATUS_CLEAR", .statusClear), ("SET_BYPASS", .setBypass), ("BLOCK_BEGIN", .blockBegin),
   ("PARAM_SET", .paramSet), ("PARAM_GET", .paramGet), ("FRAME", .frame)]
  ++ [("DL_WRITE", .dlWrite), ("DL_READ", .dlRead), ("DL_READAT", .dlReadAt), ("DL_RESIZE", .dlResize),
   ("RP_SET", .rpSet), ("RP_FRAMEVALUE", .rpFrameValue), ("RP_GET", .rpGet)]
  ++ [("LFO_SETFREQ", .lfoSetFreq), ("LFO_VALUE", .lfoValue), ("LFO_QUADVALUE", .lfoQuadValue),
   ("LFO_VALUE_AND_INCREMENT", .lfoValueAndIncrement), ("LFO_INCREMENT", .lfoIncrement),
   ("LFO_SAVE", .lfoSave), ("LFO_RESTORE", .lfoRestore)]

/-- The key names of R100, with the numbers of R92. -/
def keyNames : List (String × Sel) :=
  [("Depth", 0), ("Rate", 1), ("Delay", 2), ("Feedback", 3), ("DryMix", 4), ("WetMix", 5),
   ("NegativeFeedback", 6), ("StereoPhaseOffset", 7)]

/-- The waveform names of R100, with the codes of R94. -/
def waveformNames : List (String × Sel) := [("SINE", 0), ("TRIANGLE", 1), ("SAWTOOTH", 2)]

/-- The value that a name has in a table. -/
def lookupName {α : Type} : List (String × α) → List Char → Option α
  | [], _ => none
  | (n, v) :: t, cs => if n.toList = cs then some v else lookupName t cs

/-- The value of a digit in a base of at most 16. -/
def digitValue (base : Nat) (c : Char) : Option Nat :=
  let v :=
    if '0'.toNat ≤ c.toNat ∧ c.toNat ≤ '9'.toNat then some (c.toNat - '0'.toNat)
    else if 'A'.toNat ≤ c.toNat ∧ c.toNat ≤ 'F'.toNat then some (c.toNat - 'A'.toNat + 10)
    else if 'a'.toNat ≤ c.toNat ∧ c.toNat ≤ 'f'.toNat then some (c.toNat - 'a'.toNat + 10)
    else none
  v.filter (fun d => decide (d < base))

/-- The digits so far as a number, continued. -/
def digitsFrom (base : Nat) : Nat → List Char → Option Nat
  | n, [] => some n
  | n, c :: cs => (digitValue base c).bind fun d => digitsFrom base (n * base + d) cs

/-- A nonempty string of digits. -/
def digits (base : Nat) : List Char → Option Nat
  | [] => none
  | c :: cs => digitsFrom base 0 (c :: cs)

/-- An unsigned integer, decimal or 0x hexadecimal (R100). -/
def natText : List Char → Option Nat
  | '0' :: 'x' :: cs => digits 16 cs
  | cs => digits 10 cs

/-- A u32 operand (R100). -/
def u32Text (cs : List Char) : Option Word :=
  (natText cs).bind fun n => if n < 2 ^ 32 then some (BitVec.ofNat 32 n) else none

/-- Split at every occurrence of a character. -/
def splitAtChar (sep : Char) : List Char → List (List Char)
  | [] => [[]]
  | c :: cs =>
    match splitAtChar sep cs with
    | [] => [[c]]
    | p :: ps => if c = sep then [] :: p :: ps else (c :: p) :: ps

/-- A decimal number with a point, rounded to binary32 to nearest, ties to even. DESIGN CHOICE (log entry 18): R100
gives the form and no rounding. -/
def decimalText (neg : Bool) (cs : List Char) : Option Word :=
  match splitAtChar '.' cs with
  | [whole, part] =>
    (digits 10 whole).bind fun _ => (digits 10 part).bind fun _ =>
      (digits 10 (whole ++ part)).map fun n => pack neg (roundMag (n * 2 ^ 149) (10 ^ part.length))
  | _ => none

/-- A binary32 operand: a decimal number with a point, signed or not, or f32: and a word (R100). -/
def f32Text : List Char → Option Word
  | 'f' :: '3' :: '2' :: ':' :: cs => u32Text cs
  | '-' :: cs => decimalText true cs
  | cs => decimalText false cs

/-- A selector: a key or waveform name, ch<n>, or a plain number as the vectors of 95_test_vectors.md write one. -/
def selText (cs : List Char) : Option Sel :=
  match lookupName keyNames cs, lookupName waveformNames cs, cs with
  | some k, _, _ => some k
  | none, some w, _ => some w
  | none, none, 'c' :: 'h' :: n => small n
  | none, none, n => small n
where
  small (n : List Char) : Option Sel :=
    (natText n).bind fun k => if k < 256 then some (BitVec.ofNat 8 k) else none

/-- Every text of a list read in one way, or none. -/
def readAll {α : Type} (f : List Char → Option α) : List (List Char) → Option (List α)
  | [] => some []
  | t :: ts => (f t).bind fun v => (readAll f ts).map fun vs => v :: vs

/-- A command from its mnemonic and its comma-separated texts, operand types as R96 lists them. -/
def commandOf (m : Mnemonic) (args : List (List Char)) : Option Instr :=
  match m, args with
  | .nop, [] => some .nop
  | .configure, [w, sr, nch, mf, md] =>
    (selText w).bind fun w => (f32Text sr).bind fun sr => (u32Text nch).bind fun nch =>
      (u32Text mf).bind fun mf => (f32Text md).map fun md => .configure w sr nch mf md
  | .release, [] => some .release
  | .statusRead, [] => some .statusRead
  | .statusClear, [a] => (u32Text a).map .statusClear
  | .setBypass, [a] => (u32Text a).map .setBypass
  | .blockBegin, [] => some .blockBegin
  | .paramSet, [k, v] => (selText k).bind fun k => (f32Text v).map fun v => .paramSet k v none
  | .paramSet, [k, v, d] =>
    (selText k).bind fun k => (f32Text v).bind fun v => (u32Text d).map fun d => .paramSet k v (some d)
  | .paramGet, [k] => (selText k).map .paramGet
  | .frame, xs => (readAll f32Text xs).map .frame
  | .dlWrite, [c, x] => (selText c).bind fun c => (f32Text x).map fun x => .dlWrite c x
  | .dlRead, [c, d] => (selText c).bind fun c => (f32Text d).map fun d => .dlRead c d
  | .dlReadAt, [c, i] => (selText c).bind fun c => (u32Text i).map fun i => .dlReadAt c i
  | .dlResize, [c, n] => (selText c).bind fun c => (u32Text n).map fun n => .dlResize c n
  | .rpSet, [k, t, d] =>
    (selText k).bind fun k => (f32Text t).bind fun t => (u32Text d).map fun d => .rpSet k t d
  | .rpFrameValue, [k] => (selText k).map .rpFrameValue
  | .rpGet, [k] => (selText k).map .rpGet
  | .lfoSetFreq, [f] => (f32Text f).map .lfoSetFreq
  | .lfoValue, [] => some .lfoValue
  | .lfoQuadValue, [] => some .lfoQuadValue
  | .lfoValueAndIncrement, [] => some .lfoValueAndIncrement
  | .lfoIncrement, [] => some .lfoIncrement
  | .lfoSave, [] => some .lfoSave
  | .lfoRestore, [] => some .lfoRestore
  | _, _ => none

/-- Text without the blanks at its start. -/
def dropBlanks : List Char → List Char
  | ' ' :: cs => dropBlanks cs
  | cs => cs

/-- Text without the blanks at either end. -/
def trimBlanks (cs : List Char) : List Char := (dropBlanks (dropBlanks cs).reverse).reverse

/-- The comma-separated texts after a mnemonic. -/
def argTexts (cs : List Char) : List (List Char) :=
  match trimBlanks cs with
  | [] => []
  | c :: cs => (splitAtChar ',' (c :: cs)).map trimBlanks

/-- The first word of a line, and the rest. -/
def firstWord : List Char → List Char × List Char
  | [] => ([], [])
  | c :: cs => if c = ' ' then ([], cs) else (c :: (firstWord cs).1, (firstWord cs).2)

/-- The pseudo-instructions of R102. In a RENDER line `;` separates frames. -/
def pseudoOf (name rest : List Char) : Option Pseudo :=
  if name = "SNAP".toList then
    match argTexts rest with
    | [k, v] => (selText k).bind fun k => (f32Text v).map fun v => .snap k v
    | _ => none
  else if name = "RAMP".toList then
    match argTexts rest with
    | [k, v, n] => (selText k).bind fun k => (f32Text v).bind fun v => (u32Text n).map fun n => .ramp k v n
    | _ => none
  else if name = "BYPASS_NOW".toList then
    match argTexts rest with
    | [b] => (u32Text b).map .bypassNow
    | _ => none
  else if name = "RENDER".toList then
    (readAll (fun t => readAll f32Text (argTexts t)) (splitAtChar ';' rest)).map .render
  else if name = "CLEAR_STATUS".toList then
    if trimBlanks rest = [] then some .clearStatus else none
  else none

/-- A line without its comment (R100). -/
def dropComment : List Char → List Char
  | [] => []
  | c :: cs => if c = ';' then [] else c :: dropComment cs

/-- The commands of one line (R100, R102); an empty line has none. -/
def lineCommands (line : List Char) : Option (List Instr) :=
  let raw := firstWord (trimBlanks line)
  if raw.1 = "RENDER".toList then (pseudoOf raw.1 raw.2).map Pseudo.expand
  else
    let w := firstWord (trimBlanks (dropComment line))
    if w.1 = [] then some []
    else
      match lookupName mnemonicNames w.1 with
      | some m => (commandOf m (argTexts w.2)).map fun i => [i]
      | none => (pseudoOf w.1 w.2).map Pseudo.expand

/-- The words of one line (R101). -/
def lineWords (line : List Char) : Option (List Word) := (lineCommands line).map assemble

end Sys2Proof.Machine
end

