-- ==== Sys2Proof/Tests/Slice0.lean ====
section
/-! SUPPORT. The tests. Expected values are those of 95_test_vectors.md (named V-…) or are written out from the rule that
the test names; each one-step test looks at one step. The last part has, for each statement with hypotheses, a concrete
state and operands that meet them, clause by clause. -/

namespace Sys2Proof.Tests

open Sys2Proof.Machine

/-! ## WellFormed (R9, R80) -/

theorem test_wellFormed_frame_256 : (Instr.frame (List.replicate 256 0)).wellFormed = true := by
  decide +kernel
theorem test_wellFormed_frame_257_refused : (Instr.frame (List.replicate 257 0)).wellFormed = false := by
  decide +kernel

/-! ## Decoding: words written out from R96 and R97, one for every constructor -/

theorem test_decode_nop : decode 2 [0x00000000] = .command .nop [] := by decide
theorem test_decode_configure :
    decode 2 [0x01000000, 0x473B8000, 0x00000002, 0x00000200, 0x41200000]
      = .command (.configure 0 0x473B8000 2 512 0x41200000) [] := by decide
theorem test_decode_release : decode 2 [0x02000000] = .command .release [] := by decide
theorem test_decode_statusRead : decode 2 [0x03000000] = .command .statusRead [] := by decide
theorem test_decode_statusClear : decode 2 [0x04000000, 0x3F] = .command (.statusClear 0x3F) [] := by decide
theorem test_decode_setBypass : decode 2 [0x08000000, 1] = .command (.setBypass 1) [] := by decide
theorem test_decode_blockBegin : decode 2 [0x09000000] = .command .blockBegin [] := by decide
theorem test_decode_paramSet : decode 2 [0x10018000, 0x43480000, 0x10] = .command (.paramSet 1 0x43480000 (some 16)) [] := by
  decide
theorem test_decode_paramSet_default : decode 2 [0x10070000, 0x43480000, 7] = .command (.paramSet 7 0x43480000 none) [7] := by
  decide
theorem test_decode_paramGet : decode 2 [0x11FF0000] = .command (.paramGet 0xFF) [] := by decide
theorem test_decode_frame : decode 2 [0x12000000, 5, 6, 7] = .command (.frame [5, 6]) [7] := by decide
theorem test_decode_dlWrite : decode 2 [0x20030000, 9] = .command (.dlWrite 3 9) [] := by decide
theorem test_decode_dlRead : decode 2 [0x21010000, 0x40200000] = .command (.dlRead 1 0x40200000) [] := by decide
theorem test_decode_dlReadAt : decode 2 [0x22800000, 8] = .command (.dlReadAt 0x80 8) [] := by decide
theorem test_decode_dlResize : decode 2 [0x23000000, 0x10001] = .command (.dlResize 0 65537) [] := by decide
theorem test_decode_rpSet : decode 2 [0x30050000, 1, 2] = .command (.rpSet 5 1 2) [] := by decide
theorem test_decode_rpFrameValue : decode 2 [0x31040000] = .command (.rpFrameValue 4) [] := by decide
theorem test_decode_rpGet : decode 2 [0x32020000] = .command (.rpGet 2) [] := by decide
theorem test_decode_lfoSetFreq : decode 2 [0x40000000, 0x3F800000] = .command (.lfoSetFreq 0x3F800000) [] := by decide
theorem test_decode_lfoValue : decode 2 [0x41000000] = .command .lfoValue [] := by decide
theorem test_decode_lfoQuadValue : decode 2 [0x42000000] = .command .lfoQuadValue [] := by decide
theorem test_decode_lfoValueAndIncrement : decode 2 [0x43000000] = .command .lfoValueAndIncrement [] := by decide
theorem test_decode_lfoIncrement : decode 2 [0x44000000] = .command .lfoIncrement [] := by decide
theorem test_decode_lfoSave : decode 2 [0x45000000] = .command .lfoSave [] := by decide
theorem test_decode_lfoRestore : decode 2 [0x46000000] = .command .lfoRestore [] := by decide

/-- V-E-2: an unassigned opcode. -/
theorem test_decode_unassigned : decode 2 [0x05000000] = .illegal .unassignedOpcode 0x05 [] := by decide
/-- V-E-3: RSV is not 0. -/
theorem test_decode_reserved : decode 2 [0x00000001] = .illegal .reservedBits 0x00 [] := by decide
/-- V-E-4: D = 1 on PARAM_GET. -/
theorem test_decode_duration : decode 2 [0x11008000] = .illegal .durationBit 0x11 [] := by decide
/-- V-E-5: SEL ≠ 0 on FRAME; the next words are not consumed. -/
theorem test_decode_selector : decode 2 [0x12010000, 1, 2] = .illegal .unusedSelector 0x12 [1, 2] := by decide
/-- R80: one operand word is still missing. -/
theorem test_decode_incomplete : decode 2 [0x01000000, 1, 2, 3] = .incomplete := by decide
/-- R67: CONFIGURE's command word 0x01020000 as bytes. -/
theorem test_decode_bytes : decodeBytes 0 [0x00, 0x00, 0x00, 0x03] = .command .statusRead [] := by decide
theorem test_decodeTableWord : decodeTableWord 32 0x10018000 = some (.paramSet 1 0 (some 0)) := by decide

/-! ## One step -/

/-- The line of V-DL-1 to V-DL-12: capacity 8, and 1.0, 2.0, 3.0, 4.0 written. -/
def line8 : DelayLine :=
  { cap := 8, w := 4, buf := [(0, 0x3F800000), (1, 0x40000000), (2, 0x40400000), (3, 0x40800000)] }

/-- READY with TRIANGLE, 1000.0, 2, 16, 4.0 as V-K-1 configures it, and the line of V-DL-1 on channel 0. -/
def ready : State :=
  { State.reset with
    life := .ready
    cfg := { sr := 0x447A0000, nch := 2, maxFrames := 16, maxDms := 0x40800000, spm := 0x3F800000, wf := .triangle }
    lines := [(0, line8), (1, { cap := 8, w := 0, buf := [] })] }

/-- `ready` with V-K-1's parameters: Depth 100, Delay 2.0, Feedback 50, DryMix 50, WetMix 50, Rate 250.0. -/
def flanging : State :=
  let idle (w : Word) : Ramp := { cur := w, tgt := w, step := 0, rem := 0 }
  { ready with
    depth := idle 0x3F800000, delay := idle 0x40000000, feedback := idle 0x3F000000
    dryMix := idle 0x3F000000, wetMix := idle 0x3F000000
    rate := 0x437A0000
    lfo := { ready.lfo with inc := 0x3E800000 } }

/-- `ready` after the model fault, with the increment 1.0 (V-LFO-8). -/
def faulted : State :=
  { ready with sticky := 0x20, faults := [.lfoIncrementRange], lfo := { ready.lfo with inc := 0x3F800000 } }

/-- The state that an outcome is, if it is one. -/
def nextOf (o : Host.Outcome State Fault Refusal) : Option State :=
  match o with
  | .next t => some t
  | .fault _ => none
  | .refused _ => none

/-- One step with these words delivered. -/
def stepped (s : State) (ws : List Word) : Option State := nextOf (step (s.deliver ws))

/-- The response of that step. -/
def response (s : State) (ws : List Word) : Option (List Word) := (stepped s ws).map State.output

/-- V-E-1. -/
theorem test_nop : stepped ready [0x00000000] = some { ready with output := [0x00000000] } := by decide

/-- V-CF-1: SPM = 48.0, CAP[0] = CAP[1] = 512. -/
theorem test_configure :
    (stepped State.reset [0x01000000, 0x473B8000, 0x00000002, 0x00000200, 0x41200000]).map
      (fun t => (t.output, t.cfg.spm, t.lines, t.life))
    = some ([0x00000100], 0x42400000,
        [(0, { cap := 512, w := 0, buf := [] }), (1, { cap := 512, w := 0, buf := [] })], .ready) := by
  decide
/-- V-CF-10: BAD_SEL comes before CFG_INVALID. -/
theorem test_configure_bad_waveform :
    response State.reset [0x01030000, 0x00000000, 0x00000000, 0x00000000, 0x7FC00000] = some [0x00000102] := by
  decide

/-- V-CF-11, the first command. -/
theorem test_release :
    (stepped ready [0x02000000]).map (fun t => (t.output, t.life, t.lines, t.cfg.nch))
      = some ([0x00000200], .unconfigured, [], 2) := by decide

/-- V-K-2's STATUS, and V-PA-5's bit 18. -/
theorem test_statusRead :
    response { ready with negFb := true, stereo := true } [0x03000000] = some [0x00000300, 0x01001900] := by
  decide
theorem test_statusRead_ramping :
    response { State.reset with delay := { cur := 0, tgt := 1, step := 0, rem := 9 } } [0x03000000]
      = some [0x00000300, 0x00040000] := by decide

/-- V-CF-13. -/
theorem test_statusClear :
    (stepped { ready with sticky := 0b010001 } [0x04000000, 0x01]).map (fun t => (t.output, t.sticky))
      = some ([0x00000400], 0b010000) := by decide

/-- V-BY-1. -/
theorem test_setBypass :
    (stepped ready [0x08000000, 1]).map (fun t => (t.output, t.bypPend, t.bypAct))
      = some ([0x00000800], true, false) := by decide
/-- V-BY-4: only bit 0 counts. -/
theorem test_setBypass_bit0 :
    (stepped ready [0x08000000, 0xFFFFFFFE]).map (fun t => t.bypPend) = some false := by decide

/-- V-BY-2, the first command. -/
theorem test_blockBegin :
    (stepped { ready with bypPend := true } [0x09000000]).map (fun t => (t.output, t.bypPend, t.bypAct))
      = some ([0x00000900], true, true) := by decide

/-- V-PA-2: Depth 15.0 is stored as 0x3E19999A. -/
theorem test_paramSet :
    (stepped State.reset [0x10008000, 0x41700000, 0]).map (fun t => (t.output, t.depth))
      = some ([0x00001000], { cur := 0x3E19999A, tgt := 0x3E19999A, step := 0, rem := 0 }) := by decide
/-- V-LFO-8 through PARAM_SET Rate: at 1000.0 hertz INC = 1.0, flagged and recorded. -/
theorem test_paramSet_rate_fault :
    (stepped ready [0x10010000, 0x447A0000]).map (fun t => (t.rate, t.lfo.inc, t.sticky, t.faults))
      = some (0x447A0000, 0x3F800000, 0x20, [.lfoIncrementRange]) := by decide

/-- V-PA-2: 15.000001. -/
theorem test_paramGet :
    response { ready with depth := { cur := 0x3E19999A, tgt := 0x3E19999A, step := 0, rem := 0 } } [0x11000000]
      = some [0x00001100, 0x41700001] := by decide
/-- V-PA-7. -/
theorem test_paramGet_bad_key : response ready [0x11080000] = some [0x00001102] := by decide

/-- V-K-1's frame 1 at PH 0.25, on a line that holds 1.0, 2.0, 3.0, 4.0 (R244, R246): u = 1.0 and the position is
4.0, so channel 0 reads 0.0 there; channel 1's line is clear. -/
theorem test_frame :
    (stepped { flanging with lfo := { flanging.lfo with ph := 0x3F400000, qp := 0 } } [0x12000000, 0x3F800000, 0]).map
      (fun t => (t.output, t.lfo.ph, t.lfo.qp, t.lines))
    = some ([0x00001200, 0x3FC00000, 0], 0, 0x3E800000,
        [(0, { line8 with w := 5, buf := line8.buf ++ [(4, 0x40000000)] }), (1, { cap := 8, w := 1, buf := [] })]) := by
  decide
/-- V-BY-3: a bypassed frame copies a NaN payload and an infinity. -/
theorem test_frame_bypassed :
    stepped { flanging with bypAct := true } [0x12000000, 0x7FC00123, 0xFF800000]
      = some { flanging with bypAct := true, output := [0x00001200, 0x7FC00123, 0xFF800000] } := by decide

/-- V-DL-19. -/
theorem test_dlWrite :
    (stepped ready [0x20000000, 0x40A00000]).map (fun t => (t.output, t.line 0))
      = some ([0x00002000], { line8 with w := 5, buf := line8.buf ++ [(4, 0x40A00000)] }) := by decide
/-- R110: the cursor wraps, and a stored +0.0 leaves no entry. -/
theorem test_dlWrite_wraps :
    (stepped { ready with lines := [(0, { line8 with w := 7, buf := [(7, 1)] })] } [0x20000000, 0]).map
      (fun t => t.line 0) = some { cap := 8, w := 0, buf := [] } := by decide

/-- V-DL-5. -/
theorem test_dlRead :
    stepped ready [0x21000000, 0x3FA00000] = some { ready with output := [0x00002100, 0x40300000] } := by
  decide
/-- V-DL-12's NaN. -/
theorem test_dlRead_nan :
    stepped ready [0x21000000, 0x7FC00000]
      = some { ready with output := [0x00002100, 0x40800000], sticky := 0x10 } := by decide

/-- V-DL-1 at i = 1. -/
theorem test_dlReadAt : response ready [0x22000000, 1] = some [0x00002200, 0x40400000] := by decide
/-- V-DL-1 at i = 8: it aliases 0. -/
theorem test_dlReadAt_wraps : response ready [0x22000000, 8] = some [0x00002200, 0x40800000] := by decide

/-- V-DL-17 at n = 482. -/
theorem test_dlResize :
    (stepped ready [0x23000000, 482]).map (fun t => (t.output, t.line 0))
      = some ([0x00002300], { cap := 512, w := 0, buf := [] }) := by decide
/-- V-DL-18. -/
theorem test_dlResize_too_large :
    stepped ready [0x23000000, 65537] = some { ready with output := [0x00002304], sticky := 0x08 } := by
  decide

/-- V-RP-3: the step. -/
theorem test_rpSet :
    (stepped ready [0x30000000, 0x3F800000, 3]).map (fun t => (t.output, t.depth))
      = some ([0x00003000], { cur := 0, tgt := 0x3F800000, step := 0x3EAAAAAB, rem := 3 }) := by decide
/-- V-RP-9. -/
theorem test_rpSet_bad_key : response ready [0x30010000, 0x3F800000, 1] = some [0x00003002] := by decide

/-- V-RP-3, the second frame. -/
theorem test_rpFrameValue :
    (stepped { ready with depth := { cur := 0x3EAAAAAB, tgt := 0x3F800000, step := 0x3EAAAAAB, rem := 2 } }
      [0x31000000]).map (fun t => (t.output, t.depth.rem)) = some ([0x00003100, 0x3F2AAAAB], 1) := by decide
/-- V-RP-3, the last frame: the snap. -/
theorem test_rpFrameValue_snap :
    response { ready with depth := { cur := 0x3F2AAAAB, tgt := 0x3F800000, step := 0x3EAAAAAB, rem := 1 } }
      [0x31000000] = some [0x00003100, 0x3F800000] := by decide

/-- V-RP-2: the settled value is the target. -/
theorem test_rpGet :
    response { ready with wetMix := { cur := 0, tgt := 0x3F800000, step := 0x3E800000, rem := 4 } } [0x32050000]
      = some [0x00003200, 0x3F800000] := by decide

/-- V-LFO-5: 1.0 hertz at 8.0. -/
theorem test_lfoSetFreq :
    (stepped { ready with cfg := { ready.cfg with sr := 0x41000000 } } [0x40000000, 0x3F800000]).map
      (fun t => (t.output, t.lfo.inc, t.faults)) = some ([0x00004000], 0x3E000000, []) := by decide
/-- V-LFO-14. -/
theorem test_lfoSetFreq_unconfigured : response State.reset [0x40000000, 0x3F800000] = some [0x00004003] := by
  decide

/-- V-LFO-1 at 0.1. -/
theorem test_lfoValue :
    response { State.reset with lfo := { State.reset.lfo with ph := 0x3DCCCCCD } } [0x41000000]
      = some [0x00004100, 0x3F23D70B] := by decide

/-- V-LFO-3 at 0.9. -/
theorem test_lfoValue_sawtooth :
    response { ready with cfg := { ready.cfg with wf := .sawtooth }, lfo := { ready.lfo with ph := 0x3F666666 } }
      [0x41000000] = some [0x00004100, 0x3F4CCCCC] := by decide

/-- V-LFO-12. -/
theorem test_lfoQuadValue : response State.reset [0x42000000] = some [0x00004200, 0x3F800000] := by decide
/-- V-LFO-2 at 0.9. -/
theorem test_lfoQuadValue_triangle :
    response { ready with lfo := { ready.lfo with qp := 0x3F666666 } } [0x42000000]
      = some [0x00004200, 0xBECCCCD0] := by decide

/-- Program P3: 0.75 at PH 0.125, then one advance. -/
theorem test_lfoValueAndIncrement :
    (stepped { State.reset with lfo := { State.reset.lfo with ph := 0x3E000000, qp := 0x3EC00000, inc := 0x3E000000 } }
      [0x43000000]).map (fun t => (t.output, t.lfo.ph, t.lfo.qp))
      = some ([0x00004300, 0x3F400000], 0x3E800000, 0x3F000000) := by decide

/-- V-LFO-5: from (.75, 0) on. -/
theorem test_lfoIncrement :
    (stepped { ready with lfo := { ready.lfo with ph := 0x3F600000, qp := 0x3E000000, inc := 0x3E000000 } }
      [0x44000000]).map (fun t => (t.lfo.ph, t.lfo.qp)) = some (0, 0x3E800000) := by decide
/-- V-LFO-7: the negative wrap that rounds to 1.0 gives +0.0. -/
theorem test_lfoIncrement_tiny :
    (stepped { ready with lfo := { ready.lfo with inc := 0xB089705F } } [0x44000000]).map
      (fun t => (t.lfo.ph, t.lfo.qp)) = some (0, 0x3E800000) := by decide

/-- V-LFO-15. -/
theorem test_lfoSave :
    (stepped { ready with lfo := { ready.lfo with ph := 0x3EC00000, qp := 0x3F200000 } } [0x45000000]).map
      (fun t => (t.output, t.lfo.savPh, t.lfo.savQp)) = some ([0x00004500], 0x3EC00000, 0x3F200000) := by decide
theorem test_lfoRestore :
    (stepped { ready with lfo := { ready.lfo with savPh := 0x3EC00000, savQp := 0x3F200000 } } [0x46000000]).map
      (fun t => (t.output, t.lfo.ph, t.lfo.qp)) = some ([0x00004600], 0x3EC00000, 0x3F200000) := by decide

/-- V-E-2: an ILLEGAL word. -/
theorem test_illegal :
    stepped ready [0x05000000] = some { ready with output := [0x00000501], sticky := 0x01 } := by decide

/-- R340 with log entries 3 and 7: the release of reset keeps the parameters, the responses sent and the count of free
values, and nothing else. -/
theorem test_releaseReset :
    (({ faulted with output := [7], free := 5 } : State).assertReset.deliver [1, 2]).releaseReset
      = { State.reset with output := [7], free := 5 } := by decide

/-- R101: a line of the assembler. -/
theorem test_assembler :
    lineWords "PARAM_SET Depth, 50.0, 0".toList = some [0x10008000, 0x42480000, 0x00000000] := by decide

/-! ## Witnesses: a state and operands that meet every hypothesis of a statement together, at the ends of its ranges -/

theorem witness_StepRunsDecodedCommand :
    (ready.deliver [0x21000000, 0x40E00000, 7]).rst = false ∧ (Instr.dlRead 0 0x40E00000).wellFormed = true
    ∧ decode (if ready.life = .ready then ready.cfg.nch.toNat else 0) (ready.deliver [0x21000000, 0x40E00000, 7]).input
        = .command (.dlRead 0 0x40E00000) [7] := by decide
theorem witness_StepRunsDecodedCommand_frame :
    decode (if flanging.life = .ready then flanging.cfg.nch.toNat else 0) [0x12000000, 5, 6, 7]
      = .command (.frame [5, 6]) [7] := by decide

/-- One word for each condition of R88: the first unassigned opcode, one RSV bit, D, one SEL bit. -/
theorem witness_IllegalWordIsAnsweredAlone :
    Spec.IllegalWord 0x05000000 ∧ Spec.IllegalWord 0x00000001 ∧ Spec.IllegalWord 0x10004000
    ∧ Spec.IllegalWord 0x11008000 ∧ Spec.IllegalWord 0x12010000 ∧ Spec.IllegalWord 0xFFFFFFFF := by
  unfold Spec.IllegalWord
  decide
theorem witness_IllegalWordIsAnsweredAlone_state :
    (ready.deliver [0x12010000, 5, 6]).rst = false ∧ (ready.deliver [0x12010000, 5, 6]).input = 0x12010000 :: [5, 6] := by
  decide

/-- A stream that ends before the first word, after the command word, and one word short, of CONFIGURE and FRAME. -/
theorem witness_IncompleteCommandWaits :
    ready.assertReset.rst = true ∧ ready.input = []
    ∧ (ready.deliver [0x01000000]).input = (encode (.configure 0 1 2 3 4)).take 1
    ∧ (ready.deliver [0x01000000, 1, 2, 3]).input = (encode (.configure 0 1 2 3 4)).take 4
    ∧ 4 < (encode (.configure 0 1 2 3 4)).length
    ∧ (ready.deliver [0x12000000, 5]).input = (encode (.frame [5, 6])).take 2
    ∧ 2 < (encode (.frame [5, 6])).length ∧ [5, 6].length = ready.frameOperands := by decide

theorem witness_DecodeReadsEncodedCommand :
    (Instr.frame [5, 6]).wellFormed = true ∧ [5, 6].length = 2 ∧ (Instr.paramSet 255 1 (some 2)).wellFormed = true := by
  decide
theorem witness_DecodedCommandReencodes : decode 2 [0x12000000, 5, 6, 7] = .command (.frame [5, 6]) [7] := by decide
theorem witness_HeaderMatchesPatternTable :
    (.paramSet, 0x10000000, 0xFF007FFF) ∈ Spec.patternTable ∧ 0x10FF8000#32 &&& 0xFF007FFF#32 = 0x10000000#32
    ∧ ∀ row ∈ Spec.patternTable, 0x47000000#32 &&& row.2.2 ≠ row.2.1 := by decide

theorem witness_EveryCommandAnswersOnce :
    (∃ t, exec .statusRead ready = .next t) ∧ ∃ t, exec (.paramGet 8) ready = .next t := ⟨⟨_, rfl⟩, _, rfl⟩

/-- The codes 2, 3 and 4. -/
theorem witness_RejectionChangesOneStickyBit_bad_sel :
    (ready.deliver [0x21020000, 0]).fetch = .command (.dlRead 2 0) []
    ∧ response ready [0x21020000, 0] = some ([] ++ Spec.ack (.dlRead 2 0) 2 :: []) := by decide
theorem witness_RejectionChangesOneStickyBit_not_ready :
    (State.reset.deliver [0x40000000, 0]).fetch = .command (.lfoSetFreq 0) []
    ∧ response State.reset [0x40000000, 0] = some ([] ++ Spec.ack (.lfoSetFreq 0) 3 :: []) := by decide
theorem witness_RejectionChangesOneStickyBit_cfg_invalid :
    (ready.deliver [0x23000000, 65537, 9]).fetch = .command (.dlResize 0 65537) [9]
    ∧ response ready [0x23000000, 65537] = some ([] ++ Spec.ack (.dlResize 0 65537) 4 :: []) := by decide
theorem witness_RejectionChangesOneStickyBit_illegal :
    (ready.deliver [0x05000000, 9]).fetch = .illegal .unassignedOpcode 0x05 [9] := by decide

theorem witness_UnconfiguredAnswersNotReady : State.reset.life = .unconfigured := by decide
/-- NCH itself and the last selector. -/
theorem witness_ChannelOutOfRangeIsBadSel :
    ready.life = .ready ∧ ready.cfg.nch.toNat ≤ (2 : Sel).toNat ∧ ready.cfg.nch.toNat ≤ (255 : Sel).toNat := by decide
/-- 8 and 255 for PARAM_*, 1, 6 and 7 for RP_*, 3 for CONFIGURE. -/
theorem witness_UnknownSelectorIsBadSel :
    8 ≤ (8 : Sel).toNat ∧ 8 ≤ (255 : Sel).toNat
    ∧ (∀ r, ((1 : Sel), r) ∉ Spec.rampKeys) ∧ (∀ r, ((6 : Sel), r) ∉ Spec.rampKeys)
    ∧ (∀ r, ((7 : Sel), r) ∉ Spec.rampKeys) ∧ 3 ≤ (3 : Sel).toNat := by
  refine ⟨by decide, by decide, ?_, ?_, ?_, by decide⟩ <;> intro r <;> cases r <;> decide
theorem witness_FrameOfWrongLengthIsRefused :
    [(5 : Word)].length ≠ (if ready.life = .ready then ready.cfg.nch.toNat else 0)
    ∧ [(5 : Word)].length ≠ (if State.reset.life = .ready then State.reset.cfg.nch.toNat else 0) := by decide

/-- V-CF-1, and V-CF-4, whose capacity is CAP_MAX itself. -/
theorem witness_ConfigureCommits :
    ((0 : Sel), Waveform.sine) ∈ Spec.waveforms ∧ ((2 : Sel), Waveform.sawtooth) ∈ Spec.waveforms
    ∧ Spec.ConfigAccepted State.reset.par 0x473B8000 4 1 0x41200000
    ∧ Spec.ConfigAccepted State.reset.par 0x473B8000 1 16 0x44AAA000 := by
  unfold Spec.ConfigAccepted
  decide
/-- V-CF-6, V-CF-9, NCH 0, V-CF-8, V-CF-7, V-CF-9, an infinite x, V-CF-5. -/
theorem witness_ConfigureChecksDecide :
    ¬ Spec.ConfigAccepted State.reset.par 0x00000000 2 512 0x41200000
    ∧ ¬ Spec.ConfigAccepted State.reset.par 0x7FC00000 2 512 0x41200000
    ∧ ¬ Spec.ConfigAccepted State.reset.par 0x473B8000 0 512 0x41200000
    ∧ ¬ Spec.ConfigAccepted State.reset.par 0x473B8000 5 512 0x41200000
    ∧ ¬ Spec.ConfigAccepted State.reset.par 0x473B8000 2 0 0x41200000
    ∧ ¬ Spec.ConfigAccepted State.reset.par 0x473B8000 2 512 0xBF800000
    ∧ ¬ Spec.ConfigAccepted State.reset.par 0x7F000000 2 512 0x7F000000
    ∧ ¬ Spec.ConfigAccepted State.reset.par 0x473B8000 1 16 0x44AAC000 := by
  unfold Spec.ConfigAccepted
  refine ⟨?_, ?_, ?_, ?_, ?_, ?_, ?_, ?_⟩ <;> decide +kernel

theorem witness_BypassReachesFramesAtBlockBegin :
    ∃ t u, exec (.setBypass 1) ready = .next t ∧ exec .blockBegin t = .next u := ⟨_, _, rfl, rfl⟩
theorem witness_BypassedFrameCopies :
    let s := { ready with bypAct := true }
    s.life = .ready ∧ s.bypAct = true ∧ [(5 : Word), 6].length = s.cfg.nch.toNat := by decide

/-- Channel 0 does not clamp; with Depth 2.0 and QP at the end of its range channel 1 does. -/
theorem witness_FrameRendersEveryChannel :
    flanging.life = .ready ∧ flanging.bypAct = false ∧ flanging.faults = []
    ∧ [(5 : Word), 6].length = flanging.cfg.nch.toNat ∧ inUnit flanging.lfo.ph = true ∧ inUnit flanging.lfo.qp = true
    ∧ Spec.frameClamps flanging 0 = false ∧ Spec.frameClamps flanging 1 = false := by decide
theorem witness_FrameRendersEveryChannel_clamps :
    let s := { flanging with
      stereo := true, depth := { cur := 0x40000000, tgt := 0x40000000, step := 0, rem := 0 }
      lfo := { flanging.lfo with ph := 0x3F7FFFFF } }
    s.faults = [] ∧ inUnit s.lfo.ph = true ∧ inUnit s.lfo.qp = true
    ∧ Spec.frameClamps s 0 = false ∧ Spec.frameClamps s 1 = true := by decide
theorem witness_FrameAfterModelFaultStillRuns :
    faulted.life = .ready ∧ faulted.bypAct = false ∧ faulted.faults ≠ []
    ∧ [(5 : Word), 6].length = faulted.cfg.nch.toNat := by decide

/-- A duration carried, of 0 and of 1, and the default one, which is 0 at reset. -/
theorem witness_ParamSetStartsRamp :
    ((0 : Sel), RampKey.depth) ∈ Spec.rampKeys ∧ ((5 : Sel), RampKey.wetMix) ∈ Spec.rampKeys
    ∧ RampKey.delay ≠ RampKey.depth
    ∧ (match (none : Option Word) with | some d => d | none => State.reset.par.defaultRampFrames) = 0
    ∧ (match some (0 : Word) with | some d => d | none => State.reset.par.defaultRampFrames) = 0
    ∧ (match some (1 : Word) with | some d => d | none => State.reset.par.defaultRampFrames) = 1 := by decide
theorem witness_ParamSetRateStoresRate : ready.life = .ready ∧ State.reset.life = .unconfigured := by decide
theorem witness_ParamGetReadsSettledValue :
    ((2 : Sel), RampKey.delay) ∈ Spec.rampKeys ∧ ((4 : Sel), RampKey.dryMix) ∈ Spec.rampKeys := by decide
theorem witness_PercentageFiftyRoundTrips :
    (5 : Sel) ∈ [(0 : Sel), 3, 4, 5]
    ∧ ∃ t u, exec (.paramSet 5 0x42480000 (some 9)) ready = .next t ∧ exec (.paramGet 5) t = .next u :=
  ⟨by decide, _, _, rfl, rfl⟩
/-- V-K-1's configuration with every bounded value at its upper end, and a maximum delay of 0. -/
theorem witness_KernelPositionsAreNotClamped :
    let x := fmul 0x7FC00000 0x40800000 (fdiv 0x7FC00000 0x447A0000 0x447A0000)
    sampleRateOk 0x447A0000 = true ∧ maxDelayOk 0x40800000 = true ∧ fle 0x40800000 0x7F000000 = true ∧ isInf x = false
    ∧ fceil x ≤ 2 ^ 21 ∧ line8.ok State.reset.par ∧ (fceil x).toNat + 2 ≤ line8.cap.toNat
    ∧ fle 0x00000000 0x3F800000 = true ∧ fle 0x3F800000 0x3F800000 = true
    ∧ fle 0x00000000 0x40800000 = true ∧ fle 0x40800000 0x40800000 = true
    ∧ fle 0xBF800000 0x3F800000 = true ∧ fle 0xBF800000 0xBF800000 = true := by decide
theorem witness_KernelPositionsAreNotClamped_zero :
    let x := fmul 0x7FC00000 0x00000000 (fdiv 0x7FC00000 0x41000000 0x447A0000)
    sampleRateOk 0x41000000 = true ∧ maxDelayOk 0x00000000 = true ∧ isInf x = false ∧ fceil x = 0
    ∧ (DelayLine.resized 2).ok State.reset.par ∧ (fceil x).toNat + 2 ≤ (DelayLine.resized 2).cap.toNat := by decide
theorem witness_FirstFrameIsSilent :
    ((1 : Sel), Waveform.triangle) ∈ Spec.waveforms
    ∧ [(0x3F800000 : Word), 0x7F7FFFFF].length = (2 : Word).toNat
    ∧ (∀ x ∈ [(0x3F800000 : Word), 0x7F7FFFFF], isFinite x = true)
    ∧ ∃ t, exec (.configure 1 0x447A0000 2 16 0x40800000) (State.resetWith Config.vectorParams) = .next t
        ∧ t.life = .ready := by
  refine ⟨by decide, by decide, fun x hx => ?_, _, rfl, rfl⟩
  fin_cases hx <;> decide

/-- The first and the last channel. -/
theorem witness_DlWriteStoresAtCursor :
    ready.life = .ready ∧ (0 : Sel).toNat < ready.cfg.nch.toNat ∧ (1 : Sel).toNat < ready.cfg.nch.toNat
    ∧ (ready.line 0).ok ready.par ∧ (ready.line 1).ok ready.par := by decide
/-- 0.0, −0.0 and the largest legal delay; a NaN and the least value below 0; 7.0 and +infinity; and CAP = 1. -/
theorem witness_DlReadInterpolatesOrClamps :
    ready.life = .ready ∧ (0 : Sel).toNat < ready.cfg.nch.toNat ∧ (ready.line 0).ok ready.par
    ∧ (∀ d ∈ [(0x00000000 : Word), 0x80000000, 0x40DFFFFF],
        isNaN d = false ∧ 0 ≤ val d ∧ val d < (((ready.line 0).cap.toNat : Int) - 1) * 2 ^ 149)
    ∧ (∀ d ∈ [(0x7FC00000 : Word), 0x80000001, 0xFF800000], isNaN d = true ∨ val d < 0)
    ∧ (∀ d ∈ [(0x40E00000 : Word), 0x7F800000],
        isNaN d = false ∧ 0 ≤ val d ∧ (((ready.line 0).cap.toNat : Int) - 1) * 2 ^ 149 ≤ val d) := by
  refine ⟨by decide, by decide, by decide, fun d hd => ?_, fun d hd => ?_, fun d hd => ?_⟩ <;> fin_cases hd <;> decide
theorem witness_DlReadInterpolatesOrClamps_cap_1 :
    let s := { ready with lines := [] }
    s.life = .ready ∧ (s.line 0).ok s.par ∧ 0 ≤ val 0 ∧ (((s.line 0).cap.toNat : Int) - 1) * 2 ^ 149 ≤ val 0
    ∧ (s.line 0).cap = 1 := by decide
theorem witness_DlReadAtCountsFromNewest :
    ready.life = .ready ∧ (1 : Sel).toNat < ready.cfg.nch.toNat ∧ (ready.line 1).ok ready.par := by decide
/-- 0 and CAP_MAX are taken, CAP_MAX + 1 and the greatest u32 are not. -/
theorem witness_DlResizeClearsLine :
    ready.life = .ready ∧ (0 : Sel).toNat < ready.cfg.nch.toNat
    ∧ nextPow2 (0 : Word).toNat ≤ ready.par.capMax ∧ nextPow2 (65536 : Word).toNat ≤ ready.par.capMax
    ∧ ready.par.capMax < nextPow2 (65537 : Word).toNat
    ∧ ready.par.capMax < nextPow2 (0xFFFFFFFF : Word).toNat := by decide
/-- Index 0, and the last index of a line written more often than it is long. -/
theorem witness_ReadAtReturnsWrittenWord :
    let l := DelayLine.resized 4
    l.ok State.reset.par ∧ 0 < l.cap.toNat ∧ 3 < l.cap.toNat
    ∧ [(10 : Word), 20, 30, 40, 50].reverse[0]? = some 50 ∧ [(10 : Word), 20, 30, 40, 50].reverse[3]? = some 20 := by
  decide
theorem witness_IntegerDelayReadsEarlierSample :
    let l := DelayLine.resized 8
    l.ok State.reset.par ∧ 0 + 1 < l.cap.toNat ∧ 6 + 1 < l.cap.toNat ∧ (∀ j, isFinite (l.sample j) = true)
    ∧ (∀ y ∈ [(1 : Word), 2, 3, 4, 5, 6, 7], isFinite y = true)
    ∧ [(1 : Word), 2, 3, 4, 5, 6, 7].reverse[0]? = some 7 ∧ [(1 : Word), 2, 3, 4, 5, 6, 7].reverse[6]? = some 1 := by
  refine ⟨by decide, by decide, by decide, fun j => ?_, fun y hy => ?_, by decide, by decide⟩
  · show isFinite 0 = true
    decide
  · fin_cases hy <;> decide

theorem witness_RpSetArmsOrSnaps :
    ((0 : Sel), RampKey.depth) ∈ Spec.rampKeys ∧ ((3 : Sel), RampKey.feedback) ∈ Spec.rampKeys
    ∧ RampKey.depth ≠ RampKey.feedback ∧ (1 : Word) ≠ 0 := by decide
/-- A ramp at rest, one in its last frame, and one before it. -/
theorem witness_RpFrameValueAdvances :
    ((4 : Sel), RampKey.dryMix) ∈ Spec.rampKeys ∧ (ready.ramp .dryMix).rem = 0
    ∧ (({ ready with dryMix := { cur := 0, tgt := 5, step := 1, rem := 1 } } : State).ramp .dryMix).rem = 1
    ∧ 1 < (({ ready with dryMix := { cur := 0, tgt := 5, step := 1, rem := 2 } } : State).ramp .dryMix).rem.toNat := by
  decide
theorem witness_RpGetReadsSettledValue : ((5 : Sel), RampKey.wetMix) ∈ Spec.rampKeys := by decide
theorem witness_RampEndsExactlyOnTarget : 0 < (1 : Word).toNat ∧ (1 : Word).toNat ≤ 1 := by decide

/-- At 1000.0 hertz: 1000.0 and −1000.0 are out of range, 0.0 and the value below 1000.0 are not. -/
theorem witness_LfoSetFreqWritesIncrement :
    ready.life = .ready ∧ Spec.incBad (fdiv ready.nan 0x447A0000 ready.cfg.sr)
    ∧ Spec.incBad (fdiv ready.nan 0xC47A0000 ready.cfg.sr) ∧ Spec.incBad (fdiv ready.nan 0x7FC00000 ready.cfg.sr)
    ∧ ¬ Spec.incBad (fdiv ready.nan 0x4479FFFF ready.cfg.sr) ∧ ¬ Spec.incBad (fdiv ready.nan 0 ready.cfg.sr) := by
  unfold Spec.incBad
  decide
theorem witness_LfoPeeksChangeNothing :
    ready.faults = [] ∧ inUnit ready.lfo.ph = true ∧ inUnit ready.lfo.qp = true
    ∧ inUnit 0x3F7FFFFF = true := by decide
theorem witness_LfoAdvancesBothPhases : flanging.faults = [] ∧ inUnit flanging.lfo.ph = true := by decide
theorem witness_LfoAfterModelFaultStillRuns : faulted.faults ≠ [] := by decide
theorem witness_SavedPhasesReplay :
    ∃ t u, exec .lfoSave flanging = .next t ∧ exec .lfoRestore (State.lfoIncrement^[2] t) = .next u :=
  ⟨_, _, rfl, rfl⟩
theorem witness_WaveformsStayInRange :
    inUnit 0x00000000 = true ∧ inUnit 0x80000000 = true ∧ inUnit 0x3F7FFFFF = true := by decide

theorem witness_StepKeepsStorageCanonical :
    (flanging.deliver [0x12000000, 5, 6]).storageOk ∧ (flanging.deliver [0x12000000, 5, 6]).configOk := by decide
theorem witness_StepKeepsConfigurationRanges : (flanging.deliver [0x02000000]).configOk := by decide
theorem witness_StepKeepsIdleRampsSettled : (flanging.deliver [0x12000000, 5, 6]).rampsOk := by decide
theorem witness_StepKeepsLfoInRange : (flanging.deliver [0x12000000, 5, 6]).lfoOk := by decide
theorem witness_StepKeeps_steps :
    (∃ t, step (flanging.deliver [0x12000000, 5, 6]) = .next t) ∧ ∃ t, step (flanging.deliver [0x02000000]) = .next t :=
  ⟨⟨_, rfl⟩, _, rfl⟩
theorem witness_ResetValuesOfEveryRegister : State.reset = State.resetWith Config.vectorParams := by decide
theorem witness_ModelFaultsOnlyGrow :
    (∃ t, step (ready.deliver [0x40000000, 0x447A0000]) = .next t ∧ t.faults ≠ ready.faults)
    ∧ ∃ t, step (faulted.deliver [0x40000000, 0]) = .next t ∧ Fault.lfoIncrementRange ∈ faulted.faults :=
  ⟨⟨_, rfl, by decide⟩, _, rfl, by decide⟩
/-- One step that writes each register and each sticky bit. -/
theorem witness_RegistersHaveTheirOnlyWriters :
    (∃ t, step (ready.deliver [0x01000000, 0x41000000, 1, 4, 0]) = .next t ∧ t.cfg ≠ ready.cfg)
    ∧ (∃ t, step (ready.deliver [0x02000000]) = .next t ∧ t.life ≠ ready.life)
    ∧ (∃ t, step (ready.deliver [0x10010000, 5]) = .next t ∧ t.rate ≠ ready.rate)
    ∧ (∃ t, step (ready.deliver [0x10060000, 0x3F800000]) = .next t ∧ t.negFb ≠ ready.negFb)
    ∧ (∃ t, step (ready.deliver [0x10070000, 0x3F800000]) = .next t ∧ t.stereo ≠ ready.stereo)
    ∧ (∃ t, step (ready.deliver [0x08000000, 1]) = .next t ∧ t.bypPend ≠ ready.bypPend)
    ∧ ∃ t, step (({ ready with bypPend := true } : State).deliver [0x09000000]) = .next t ∧ t.bypAct ≠ ready.bypAct :=
  ⟨⟨_, rfl, by decide⟩, ⟨_, rfl, by decide⟩, ⟨_, rfl, by decide⟩, ⟨_, rfl, by decide⟩, ⟨_, rfl, by decide⟩,
    ⟨_, rfl, by decide⟩, _, rfl, by decide⟩
theorem witness_RegistersHaveTheirOnlyWriters_ramp_lfo_line :
    (((5 : Sel), RampKey.wetMix) ∈ Spec.rampKeys
      ∧ ∃ t, step (ready.deliver [0x30050000, 0x3F800000, 4]) = .next t ∧ t.ramp .wetMix ≠ ready.ramp .wetMix)
    ∧ (∃ t, step (flanging.deliver [0x44000000]) = .next t ∧ t.lfo.ph ≠ flanging.lfo.ph ∧ t.lfo.qp ≠ flanging.lfo.qp)
    ∧ (∃ t, step (ready.deliver [0x40000000, 0x437A0000]) = .next t ∧ t.lfo.inc ≠ ready.lfo.inc)
    ∧ (∃ t, step (({ ready with lfo := { ready.lfo with ph := 5 } } : State).deliver [0x45000000]) = .next t
        ∧ t.lfo.savPh ≠ ready.lfo.savPh)
    ∧ (∃ t, step (ready.deliver [0x20000000, 5]) = .next t ∧ t.line 0 ≠ ready.line 0)
    ∧ ∃ t, step (ready.deliver [0x23010000, 9]) = .next t ∧ (t.line 1).cap ≠ (ready.line 1).cap :=
  ⟨⟨by decide, _, rfl, by decide⟩, ⟨_, rfl, by decide⟩, ⟨_, rfl, by decide⟩, ⟨_, rfl, by decide⟩, ⟨_, rfl, by decide⟩,
    _, rfl, by decide⟩
theorem witness_RegistersHaveTheirOnlyWriters_sticky :
    (∃ t, step (faulted.deliver [0x04000000, 0x20]) = .next t
      ∧ faulted.sticky.getLsbD 5 = true ∧ t.sticky.getLsbD 5 = false)
    ∧ (∃ t, step (ready.deliver [0x05000000]) = .next t ∧ ready.sticky.getLsbD 0 = false ∧ t.sticky.getLsbD 0 = true)
    ∧ (∃ t, step (ready.deliver [0x23000000, 65537]) = .next t ∧ t.sticky.getLsbD 3 = true)
    ∧ (∃ t, step (ready.deliver [0x21000000, 0x7FC00000]) = .next t ∧ t.sticky.getLsbD 4 = true)
    ∧ ∃ t, step (ready.deliver [0x10010000, 0x447A0000]) = .next t ∧ t.sticky.getLsbD 5 = true
        ∧ t.faults ≠ ready.faults :=
  ⟨⟨_, rfl, by decide⟩, ⟨_, rfl, by decide⟩, ⟨_, rfl, by decide⟩, ⟨_, rfl, by decide⟩, _, rfl, by decide⟩

theorem witness_IntegerHelpersAreExact : 2 ^ 24 ≤ 2 ^ 24 ∧ 5 ≤ 2 ^ 3 := by decide
/-- The clauses of R12: finite operands with a sum and a difference other than 0 and equal to 0, a divisor of 0, two
infinities, an infinity and a finite word, a NaN. -/
theorem witness_RoundingIsNearestTiesToEven :
    0 < 3 ∧ isInf (BitVec.ofNat 32 (roundMag 1 3)) = false ∧ isFinite 0x7F7FFFFF = true ∧ isFinite 0x00000001 = true
    ∧ val 0x7F7FFFFF + val 0x00000001 ≠ 0 ∧ val 0x3F800000 + val 0xBF800000 = 0
    ∧ val 0x7F7FFFFF - val 0x00000001 ≠ 0 ∧ val 0x80000000 - val 0x00000000 = 0
    ∧ mag 0x00000001 ≠ 0 ∧ mag 0x80000000 = 0 ∧ isInf 0x7F800000 = true ∧ isInf 0xFF800000 = true
    ∧ isNaN 0x7F800001 = true ∧ isNaN 0xFF800000 = false := by
  decide +kernel
/-- The least value with one below it, the greatest, and both zeros. -/
theorem witness_NextDownIsGreatestBelow :
    ∀ a ∈ [(0xFF7FFFFF : Word), 0x7F800000, 0x00000000, 0x80000000], isNaN a = false ∧ a ≠ 0xFF800000 := by
  intro a ha
  fin_cases ha <;> decide

end Sys2Proof.Tests
end

section
/-! # The bits of a binary32 word, and its value -/

namespace Sys2Proof.Proofs

open Sys2Proof.Machine

/-- Bits 30:0 of a word, all of it but the sign (R13), as a number. -/
def magBits (w : Word) : Nat := w.toNat % 2 ^ 31

/-- The magnitude that bits 30:0 stand for, in units of 2^−149, with no upper bound on the exponent. -/
def bitsMag (b : Nat) : Nat :=
  if b / 2 ^ 23 = 0 then b % 2 ^ 23 else (2 ^ 23 + b % 2 ^ 23) * 2 ^ (b / 2 ^ 23 - 1)

/-! ## The fields of a word -/

theorem magBits_lt (w : Word) : magBits w < 2 ^ 31 := Nat.mod_lt _ (by norm_num)

theorem fexp_eq_magBits_div (w : Word) : fexp w = magBits w / 2 ^ 23 := by
  have h : fexp w = w.toNat / 2 ^ 23 % 2 ^ 8 := by
    simp [fexp, BitVec.extractLsb'_toNat, Nat.shiftRight_eq_div_pow]
  unfold magBits
  omega

theorem ffrac_eq_magBits_mod (w : Word) : ffrac w = magBits w % 2 ^ 23 := by
  have h : ffrac w = w.toNat % 2 ^ 23 := by simp [ffrac, BitVec.extractLsb'_toNat]
  unfold magBits
  omega

theorem fsign_eq_decide (w : Word) : fsign w = decide (2 ^ 31 ≤ w.toNat) := by
  simp [fsign, BitVec.msb_eq_decide]

theorem mag_eq_bitsMag (w : Word) : mag w = bitsMag (magBits w) := by
  simp only [mag, bitsMag, fexp_eq_magBits_div, ffrac_eq_magBits_mod]

theorem isNaN_iff (w : Word) : isNaN w = true ↔ infBits < magBits w := by
  have := magBits_lt w
  simp only [isNaN, fexp_eq_magBits_div, ffrac_eq_magBits_mod, Bool.and_eq_true, beq_iff_eq, bne_iff_ne, infBits]
  omega

theorem isInf_iff (w : Word) : isInf w = true ↔ magBits w = infBits := by
  simp only [isInf, fexp_eq_magBits_div, ffrac_eq_magBits_mod, Bool.and_eq_true, beq_iff_eq, infBits]
  omega

theorem isFinite_iff (w : Word) : isFinite w = true ↔ magBits w < infBits := by
  have := magBits_lt w
  simp only [isFinite, fexp_eq_magBits_div, bne_iff_ne, infBits]
  omega

theorem isNaN_eq_false_iff (w : Word) : isNaN w = false ↔ magBits w ≤ infBits := by
  rw [Bool.eq_false_iff, ne_eq, isNaN_iff, Nat.not_lt]

theorem isInf_eq_false_iff (w : Word) : isInf w = false ↔ magBits w ≠ infBits := by
  rw [Bool.eq_false_iff, ne_eq, isInf_iff]

theorem isNaN_of_isFinite {w : Word} (h : isFinite w = true) : isNaN w = false :=
  (isNaN_eq_false_iff w).mpr ((isFinite_iff w).mp h).le

theorem isInf_of_isFinite {w : Word} (h : isFinite w = true) : isInf w = false :=
  (isInf_eq_false_iff w).mpr ((isFinite_iff w).mp h).ne

theorem isNaN_of_isInf {w : Word} (h : isInf w = true) : isNaN w = false :=
  (isNaN_eq_false_iff w).mpr ((isInf_iff w).mp h).le

/-! ## The magnitude is strictly monotone in the bits -/

theorem bitsMag_zero : bitsMag 0 = 0 := rfl

/-- The magnitude from the exponent field and the fraction. -/
theorem bitsMag_fields (e f : Nat) (hf : f < 2 ^ 23) :
    bitsMag (e * 2 ^ 23 + f) = if e = 0 then f else (2 ^ 23 + f) * 2 ^ (e - 1) := by
  have hdiv : (e * 2 ^ 23 + f) / 2 ^ 23 = e := by omega
  have hmod : (e * 2 ^ 23 + f) % 2 ^ 23 = f := by omega
  rw [bitsMag, hdiv, hmod]

/-- Counting the bits up by one adds the spacing of the binade, over the binades' borders too. -/
theorem bitsMag_succ (b : Nat) : bitsMag (b + 1) = bitsMag b + 2 ^ (b / 2 ^ 23 - 1) := by
  obtain ⟨e, f, hf, rfl, hdiv⟩ : ∃ e f, f < 2 ^ 23 ∧ b = e * 2 ^ 23 + f ∧ b / 2 ^ 23 = e :=
    ⟨b / 2 ^ 23, b % 2 ^ 23, Nat.mod_lt _ (by norm_num), by omega, rfl⟩
  rw [hdiv, bitsMag_fields e f hf]
  rcases Nat.lt_or_ge f (2 ^ 23 - 1) with hbelow | hcarry
  · rw [Nat.add_assoc, bitsMag_fields e (f + 1) (by omega)]
    cases e with
    | zero => simp
    | succ e => simp only [Nat.succ_ne_zero, if_false]; ring
  · obtain rfl : f = 2 ^ 23 - 1 := by omega
    have hnext : e * 2 ^ 23 + (2 ^ 23 - 1) + 1 = (e + 1) * 2 ^ 23 + 0 := by ring
    rw [hnext, bitsMag_fields (e + 1) 0 (by norm_num)]
    cases e with
    | zero => simp
    | succ e => simp only [Nat.add_sub_cancel, Nat.succ_ne_zero, if_false, pow_succ 2 e]; ring

theorem bitsMag_strictMono : StrictMono bitsMag :=
  strictMono_nat_of_lt_succ fun b => by
    rw [bitsMag_succ]
    exact Nat.lt_add_of_pos_right (Nat.two_pow_pos _)

theorem mag_eq_zero_iff (w : Word) : mag w = 0 ↔ magBits w = 0 := by
  rw [mag_eq_bitsMag]
  exact bitsMag_strictMono.injective.eq_iff (b := 0)

theorem isZero_iff (w : Word) : isZero w = true ↔ magBits w = 0 := by
  rw [← mag_eq_zero_iff, isZero, beq_iff_eq]

theorem isZero_eq_false_iff (w : Word) : isZero w = false ↔ magBits w ≠ 0 := by
  rw [Bool.eq_false_iff, ne_eq, isZero_iff]

theorem isZero_of_isInf {w : Word} (h : isInf w = true) : isZero w = false := by
  rw [isZero_eq_false_iff, (isInf_iff w).mp h]
  decide

/-- A significand of 23 or 24 bits scaled by a power of two; where the exponent is 0 any smaller one is possible. -/
theorem bitsMag_scaled (sh r : Nat) (hr : r ≤ 2 ^ 24) (hnormal : sh = 0 ∨ 2 ^ 23 ≤ r) :
    bitsMag (sh * 2 ^ 23 + r) = r * 2 ^ sh := by
  rcases Nat.lt_or_ge r (2 ^ 23) with hsmall | hlarge
  · obtain rfl : sh = 0 := by omega
    rw [bitsMag_fields 0 r hsmall, if_pos rfl, pow_zero, Nat.mul_one]
  · rcases Nat.lt_or_ge r (2 ^ 24) with hbelow | htop
    · have hparts : sh * 2 ^ 23 + r = (sh + 1) * 2 ^ 23 + (r - 2 ^ 23) := by omega
      have hfrac : 2 ^ 23 + (r - 2 ^ 23) = r := by omega
      rw [hparts, bitsMag_fields (sh + 1) (r - 2 ^ 23) (by omega), if_neg (by omega), hfrac, Nat.add_sub_cancel]
    · obtain rfl : r = 2 ^ 24 := by omega
      have hparts : sh * 2 ^ 23 + 2 ^ 24 = (sh + 2) * 2 ^ 23 + 0 := by ring
      have hexp : sh + 2 - 1 = sh + 1 := by omega
      rw [hparts, bitsMag_fields (sh + 2) 0 (by norm_num), if_neg (by omega), hexp]
      ring

theorem bitsMag_infBits : bitsMag infBits = 2 ^ 24 * 2 ^ 253 := by
  rw [← bitsMag_scaled 253 (2 ^ 24) (by norm_num) (by norm_num)]
  rfl

/-- The greatest finite magnitude. -/
theorem bitsMag_pred_infBits : bitsMag (infBits - 1) = (2 ^ 24 - 1) * 2 ^ 253 :=
  bitsMag_scaled 253 (2 ^ 24 - 1) (by norm_num) (by norm_num)

/-- Every number of at most 24 bits, scaled by any power of two, is the magnitude of some bits. -/
theorem exists_bitsMag_eq (m k : Nat) (hm : m ≤ 2 ^ 24) : ∃ b, bitsMag b = m * 2 ^ k := by
  induction k generalizing m with
  | zero => exact ⟨0 * 2 ^ 23 + m, bitsMag_scaled 0 m hm (.inl rfl)⟩
  | succ k ih =>
    by_cases hbig : 2 ^ 23 ≤ m
    · exact ⟨_, bitsMag_scaled (k + 1) m hm (.inr hbig)⟩
    · obtain ⟨b, hb⟩ := ih (2 * m) (by omega)
      exact ⟨b, by rw [hb]; ring⟩

/-! ## Words from their parts -/

theorem toNat_pack (neg : Bool) (b : Nat) (hb : b < 2 ^ 31) :
    (pack neg b).toNat = (if neg then 2 ^ 31 else 0) + b := by
  rw [pack, BitVec.toNat_ofNat]
  exact Nat.mod_eq_of_lt (by split <;> omega)

theorem magBits_pack (neg : Bool) (b : Nat) (hb : b < 2 ^ 31) : magBits (pack neg b) = b := by
  rw [magBits, toNat_pack neg b hb]
  split <;> omega

theorem fsign_pack (neg : Bool) (b : Nat) (hb : b < 2 ^ 31) : fsign (pack neg b) = neg := by
  rw [fsign_eq_decide, toNat_pack neg b hb]
  cases neg
  · simpa using hb
  · simp

theorem isNaN_pack {b : Nat} (neg : Bool) (hb : b ≤ infBits) : isNaN (pack neg b) = false := by
  rwa [isNaN_eq_false_iff, magBits_pack neg b (Nat.lt_of_le_of_lt hb (by decide))]

/-- A word is its sign and its other bits. -/
theorem toNat_eq (w : Word) : w.toNat = (if fsign w then 2 ^ 31 else 0) + magBits w := by
  have := w.isLt
  rw [fsign_eq_decide, magBits]
  by_cases h : 2 ^ 31 ≤ w.toNat
  · simp only [h, decide_true, if_true]; omega
  · simp only [h, decide_false, Bool.false_eq_true, if_false]; omega

@[simp] theorem fsign_fneg (a : Word) : fsign (fneg a) = !fsign a := by
  have hmask : (0x80000000#32).msb = true := by decide
  rw [fsign, fneg, BitVec.msb_xor, hmask, Bool.xor_true, fsign]

@[simp] theorem magBits_fneg (a : Word) : magBits (fneg a) = magBits a := by
  have hmask : (0x80000000#32).toNat % 2 ^ 31 = 0 := by decide
  rw [magBits, fneg, BitVec.toNat_xor, Nat.xor_mod_two_pow, hmask, Nat.xor_zero, magBits]

@[simp] theorem isNaN_fneg (a : Word) : isNaN (fneg a) = isNaN a := by
  rw [Bool.eq_iff_iff, isNaN_iff, isNaN_iff, magBits_fneg]

@[simp] theorem isInf_fneg (a : Word) : isInf (fneg a) = isInf a := by
  rw [Bool.eq_iff_iff, isInf_iff, isInf_iff, magBits_fneg]

@[simp] theorem isFinite_fneg (a : Word) : isFinite (fneg a) = isFinite a := by
  rw [Bool.eq_iff_iff, isFinite_iff, isFinite_iff, magBits_fneg]

@[simp] theorem val_fneg (a : Word) : val (fneg a) = -val a := by
  simp only [val, mag_eq_bitsMag, magBits_fneg, fsign_fneg]
  cases fsign a <;> simp

/-! ## The order of values is the order of the bits -/

/-- Bits 30:0 with the sign of the word: an integer in the order of the values. -/
def signedBits (w : Word) : Int := if fsign w then -(magBits w : Int) else (magBits w : Int)

theorem signedBits_pack (neg : Bool) (b : Nat) (hb : b < 2 ^ 31) :
    signedBits (pack neg b) = if neg then -(b : Int) else (b : Int) := by
  rw [signedBits, fsign_pack neg b hb, magBits_pack neg b hb]

theorem val_lt_val_iff (a b : Word) : val a < val b ↔ signedBits a < signedBits b := by
  have hlt := bitsMag_strictMono.lt_iff_lt (a := magBits a) (b := magBits b)
  have hgt := bitsMag_strictMono.lt_iff_lt (a := magBits b) (b := magBits a)
  have ha := bitsMag_strictMono.lt_iff_lt (a := 0) (b := magBits a)
  have hb := bitsMag_strictMono.lt_iff_lt (a := 0) (b := magBits b)
  rw [bitsMag_zero] at ha hb
  simp only [val, signedBits, mag_eq_bitsMag]
  cases fsign a <;> cases fsign b <;>
    simp only [Bool.false_eq_true, if_false, if_true] <;> omega

theorem val_le_val_iff (a b : Word) : val a ≤ val b ↔ signedBits a ≤ signedBits b := by
  rw [← not_lt, ← not_lt, val_lt_val_iff]

theorem flt_iff {a b : Word} (ha : isNaN a = false) (hb : isNaN b = false) : flt a b = true ↔ val a < val b := by
  simp [flt, ha, hb]

theorem fle_iff {a b : Word} (ha : isNaN a = false) (hb : isNaN b = false) : fle a b = true ↔ val a ≤ val b := by
  simp [fle, ha, hb]

theorem feq_iff {a b : Word} (ha : isNaN a = false) (hb : isNaN b = false) : feq a b = true ↔ val a = val b := by
  simp [feq, ha, hb]

/-- A comparison that is true has no NaN operand. -/
theorem isNaN_of_flt {a b : Word} (h : flt a b = true) : isNaN a = false ∧ isNaN b = false := by
  simp only [flt, Bool.and_eq_true, Bool.not_eq_true'] at h
  exact h.1

end Sys2Proof.Proofs
end

section
/-! # Rounding is to the nearest value, ties to even -/

namespace Sys2Proof.Proofs

open Sys2Proof.Machine

/-! ## Rounding to a whole number -/

theorem roundDiv_le {n d k : Nat} (hd : 0 < d) (h : n < k * d) : roundDiv n d ≤ k := by
  have herr := (roundDiv_error n d hd).1
  have hlt : 2 * roundDiv n d * d < (2 * k + 1) * d := by
    calc 2 * roundDiv n d * d = 2 * (roundDiv n d * d) := Nat.mul_assoc ..
      _ ≤ 2 * n + d := herr
      _ < 2 * (k * d) + d := by omega
      _ = (2 * k + 1) * d := by ring
  have := Nat.lt_of_mul_lt_mul_right hlt
  omega

theorem le_roundDiv {n d k : Nat} (hd : 0 < d) (h : k * d ≤ n) : k ≤ roundDiv n d := by
  have herr := (roundDiv_error n d hd).2
  have hle : 2 * k * d ≤ (2 * roundDiv n d + 1) * d := by
    calc 2 * k * d = 2 * (k * d) := Nat.mul_assoc ..
      _ ≤ 2 * n := Nat.mul_le_mul_left 2 h
      _ ≤ 2 * (roundDiv n d * d) + d := herr
      _ = (2 * roundDiv n d + 1) * d := by ring
  have := Nat.le_of_mul_le_mul_right hle hd
  omega

/-- Half way between two whole numbers the even one is taken. -/
theorem roundDiv_even_of_tie (n d : Nat) (hd : 0 < d)
    (htie : 2 * n = 2 * (roundDiv n d * d) + d ∨ 2 * (roundDiv n d * d) = 2 * n + d) : roundDiv n d % 2 = 0 := by
  have hn : n / d * d + n % d = n := Nat.div_add_mod' n d
  have hm := Nat.mod_lt n hd
  have hs : (n / d + 1) * d = n / d * d + d := Nat.succ_mul ..
  unfold roundDiv at htie ⊢
  split at htie
  next => omega
  next hup =>
    split at htie
    next hdown => rw [hs] at htie; omega
    next hdown =>
      rw [if_neg hup, if_neg hdown]
      split <;> omega

/-! ## The spacing about a quotient -/

/-- In units of the spacing a quotient has at most 24 bits before the point, and exactly 24 above the least spacing. -/
theorem spacingExp_spec (n d : Nat) (hd : 0 < d) :
    n < 2 ^ 24 * (d * 2 ^ spacingExp (n / d))
    ∧ (spacingExp (n / d) = 0 ∨ 2 ^ 23 * (d * 2 ^ spacingExp (n / d)) ≤ n) := by
  by_cases hsmall : n / d < 2 ^ 24
  · have hsh : spacingExp (n / d) = 0 := if_pos hsmall
    rw [hsh, pow_zero, Nat.mul_one]
    exact ⟨(Nat.div_lt_iff_lt_mul hd).mp hsmall, .inl rfl⟩
  · have hsh : spacingExp (n / d) = (n / d).log2 - 23 := if_neg hsmall
    have hpos : n / d ≠ 0 := by omega
    have hlog : 24 ≤ (n / d).log2 := (Nat.le_log2 hpos).mpr (by omega)
    have hlow : 2 ^ (n / d).log2 ≤ n / d := Nat.log2_self_le hpos
    have hhigh : n / d < 2 ^ ((n / d).log2 + 1) := Nat.lt_log2_self
    have e23 : 2 ^ 23 * (d * 2 ^ ((n / d).log2 - 23)) = 2 ^ (n / d).log2 * d := by
      rw [← Nat.mul_assoc, Nat.mul_right_comm, ← pow_add, Nat.add_sub_cancel' (by omega)]
    have e24 : 2 ^ 24 * (d * 2 ^ ((n / d).log2 - 23)) = 2 ^ ((n / d).log2 + 1) * d := by
      rw [pow_succ 2 (n / d).log2, Nat.mul_right_comm, ← e23]; ring
    rw [hsh, e23, e24]
    exact ⟨(Nat.div_lt_iff_lt_mul hd).mp hhigh, .inr ((Nat.le_div_iff_mul_le hd).mp hlow)⟩

/-! ## The nearest bits, with no upper bound on the exponent -/

/-- Bits r stand for a magnitude as near to n / d as any other; where another is as near, r is even. -/
def IsNearestBits (r n d : Nat) : Prop :=
  ∀ b, |(n : Int) - bitsMag r * d| ≤ |(n : Int) - bitsMag b * d|
    ∧ (|(n : Int) - bitsMag r * d| = |(n : Int) - bitsMag b * d| → b ≠ r → r % 2 = 0)

/-- The rounded bits 30:0 before they are cut off at the infinity's. -/
def roundBits (n d : Nat) : Nat := spacingExp (n / d) * 2 ^ 23 + roundDiv n (d * 2 ^ spacingExp (n / d))

theorem roundMag_eq_min (n d : Nat) : roundMag n d = min (roundBits n d) infBits := rfl

/-- The significand of the rounded bits is in the range of `bitsMag_scaled`. -/
theorem roundDiv_spacing_range (n d : Nat) (hd : 0 < d) :
    roundDiv n (d * 2 ^ spacingExp (n / d)) ≤ 2 ^ 24
    ∧ (spacingExp (n / d) = 0 ∨ 2 ^ 23 ≤ roundDiv n (d * 2 ^ spacingExp (n / d))) := by
  have hD : 0 < d * 2 ^ spacingExp (n / d) := Nat.mul_pos hd (Nat.two_pow_pos _)
  obtain ⟨hlt, hge⟩ := spacingExp_spec n d hd
  exact ⟨roundDiv_le hD hlt, hge.imp_right (le_roundDiv hD)⟩

theorem bitsMag_roundBits (n d : Nat) (hd : 0 < d) :
    bitsMag (roundBits n d) * d = roundDiv n (d * 2 ^ spacingExp (n / d)) * (d * 2 ^ spacingExp (n / d)) := by
  obtain ⟨hr, hnormal⟩ := roundDiv_spacing_range n d hd
  rw [roundBits, bitsMag_scaled _ _ hr hnormal]
  ring

/-- Bits above those of a significand r lie at least a spacing higher. -/
theorem bitsMag_above (sh r b : Nat) (hr : r ≤ 2 ^ 24) (hnormal : sh = 0 ∨ 2 ^ 23 ≤ r)
    (hb : sh * 2 ^ 23 + r < b) : (r + 1) * 2 ^ sh ≤ bitsMag b := by
  have hexp : sh ≤ (sh * 2 ^ 23 + r) / 2 ^ 23 - 1 := by omega
  calc (r + 1) * 2 ^ sh = r * 2 ^ sh + 2 ^ sh := Nat.succ_mul ..
    _ ≤ r * 2 ^ sh + 2 ^ ((sh * 2 ^ 23 + r) / 2 ^ 23 - 1) :=
        Nat.add_le_add_left (Nat.pow_le_pow_right (by norm_num) hexp) _
    _ = bitsMag (sh * 2 ^ 23 + r + 1) := by rw [bitsMag_succ, bitsMag_scaled sh r hr hnormal]
    _ ≤ bitsMag b := bitsMag_strictMono.monotone hb

/-- Bits below those of a significand r lie at least a spacing lower, except below a power of two, where the spacing
halves. -/
theorem bitsMag_below (sh r b : Nat) (hr : r ≤ 2 ^ 24) (hnormal : sh = 0 ∨ 2 ^ 23 ≤ r)
    (hb : b < sh * 2 ^ 23 + r) :
    (bitsMag b + 2 ^ sh ≤ r * 2 ^ sh) ∨ (sh ≠ 0 ∧ r = 2 ^ 23 ∧ bitsMag b < r * 2 ^ sh) := by
  by_cases hborder : sh ≠ 0 ∧ r = 2 ^ 23
  · refine .inr ⟨hborder.1, hborder.2, ?_⟩
    rw [← bitsMag_scaled sh r hr hnormal]
    exact bitsMag_strictMono hb
  · left
    obtain ⟨p, rfl⟩ : ∃ p, r = p + 1 := ⟨r - 1, by omega⟩
    have hp : bitsMag (sh * 2 ^ 23 + p) = p * 2 ^ sh := bitsMag_scaled sh p (by omega) (by omega)
    have hle : bitsMag b ≤ p * 2 ^ sh := hp ▸ bitsMag_strictMono.monotone (by omega)
    rw [Nat.succ_mul]
    exact Nat.add_le_add_right hle _

/-- Other bits than the rounded ones lie at least a spacing off in n's own units, or below the rounded magnitude where n
does not. -/
theorem roundBits_spaced (n d b : Nat) (hd : 0 < d) (hb : b ≠ roundBits n d) :
    bitsMag (roundBits n d) * d + d * 2 ^ spacingExp (n / d) ≤ bitsMag b * d
    ∨ bitsMag b * d + d * 2 ^ spacingExp (n / d) ≤ bitsMag (roundBits n d) * d
    ∨ (bitsMag b * d < bitsMag (roundBits n d) * d ∧ bitsMag (roundBits n d) * d ≤ n) := by
  obtain ⟨hr, hnormal⟩ := roundDiv_spacing_range n d hd
  obtain ⟨-, hge⟩ := spacingExp_spec n d hd
  unfold roundBits at hb ⊢
  generalize spacingExp (n / d) = sh at *
  generalize roundDiv n (d * 2 ^ sh) = r at *
  rw [bitsMag_scaled sh r hr hnormal]
  rcases Nat.lt_or_gt_of_ne hb with hb | hb
  · right
    rcases bitsMag_below sh r b hr hnormal hb with hgap | ⟨hsh, hpow, hlt⟩
    · left
      calc bitsMag b * d + d * 2 ^ sh = (bitsMag b + 2 ^ sh) * d := by ring
        _ ≤ r * 2 ^ sh * d := Nat.mul_le_mul_right d hgap
    · refine .inr ⟨Nat.mul_lt_mul_of_pos_right hlt hd, ?_⟩
      calc r * 2 ^ sh * d = 2 ^ 23 * (d * 2 ^ sh) := by rw [hpow]; ring
        _ ≤ n := hge.resolve_left hsh
  · left
    calc r * 2 ^ sh * d + d * 2 ^ sh = (r + 1) * 2 ^ sh * d := by ring
      _ ≤ bitsMag b * d := Nat.mul_le_mul_right d (bitsMag_above sh r b hr hnormal hb)

/-- The rounded magnitude is at most half a spacing off. -/
theorem roundBits_error (n d : Nat) (hd : 0 < d) :
    2 * (bitsMag (roundBits n d) * d) ≤ 2 * n + d * 2 ^ spacingExp (n / d)
    ∧ 2 * n ≤ 2 * (bitsMag (roundBits n d) * d) + d * 2 ^ spacingExp (n / d) := by
  rw [bitsMag_roundBits n d hd]
  exact roundDiv_error n _ (Nat.mul_pos hd (Nat.two_pow_pos _))

/-- Half a spacing off, the rounded bits are even. -/
theorem roundBits_even_of_tie (n d : Nat) (hd : 0 < d)
    (htie : 2 * n = 2 * (bitsMag (roundBits n d) * d) + d * 2 ^ spacingExp (n / d)
      ∨ 2 * (bitsMag (roundBits n d) * d) = 2 * n + d * 2 ^ spacingExp (n / d)) : roundBits n d % 2 = 0 := by
  rw [bitsMag_roundBits n d hd] at htie
  have := roundDiv_even_of_tie n _ (Nat.mul_pos hd (Nat.two_pow_pos _)) htie
  unfold roundBits
  omega

/-- With x at most half a spacing D from n, and another candidate y a spacing from x or below x where n is not, x is as
near to n as y, and nearer but for a tie. -/
theorem nearest_of_spaced {n x y D : Nat} (herr : 2 * x ≤ 2 * n + D ∧ 2 * n ≤ 2 * x + D)
    (hy : x + D ≤ y ∨ y + D ≤ x ∨ (y < x ∧ x ≤ n)) :
    |(n : Int) - x| ≤ |(n : Int) - y|
    ∧ (|(n : Int) - x| = |(n : Int) - y| → 2 * n = 2 * x + D ∨ 2 * x = 2 * n + D) := by
  simp only [abs_eq_max_neg]
  omega

theorem isNearestBits_roundBits (n d : Nat) (hd : 0 < d) : IsNearestBits (roundBits n d) n d := by
  intro b
  by_cases hb : b = roundBits n d
  · exact ⟨by rw [hb], fun _ hne => absurd hb hne⟩
  · have hnear := nearest_of_spaced (roundBits_error n d hd) (roundBits_spaced n d b hd hb)
    push_cast at hnear
    exact ⟨hnear.1, fun heq _ => roundBits_even_of_tie n d hd (hnear.2 heq)⟩

/-- The nearest bits reach the infinity's exactly from half a spacing above the greatest finite magnitude on. The
infinity's bits are even and those of the greatest finite magnitude odd, so the tie goes up. -/
theorem infBits_le_iff_of_isNearestBits {r n d : Nat} (hd : 0 < d) (hr : IsNearestBits r n d) :
    infBits ≤ r ↔ (2 ^ 25 - 1) * 2 ^ 252 * d ≤ n := by
  have hU : 0 < 2 ^ 252 * d := Nat.mul_pos (Nat.two_pow_pos _) hd
  have hmid : (2 ^ 25 - 1) * 2 ^ 252 * d = (2 ^ 25 - 1) * (2 ^ 252 * d) := Nat.mul_assoc ..
  have hinf : bitsMag infBits * d = 2 ^ 25 * (2 ^ 252 * d) := by rw [bitsMag_infBits]; ring
  have hmax : bitsMag (infBits - 1) * d = (2 ^ 25 - 2) * (2 ^ 252 * d) := by rw [bitsMag_pred_infBits]; ring
  obtain ⟨hnearInf, htieInf⟩ := hr infBits
  obtain ⟨hnearMax, -⟩ := hr (infBits - 1)
  rw [hmid]
  simp only [← Nat.cast_mul, hinf, hmax, abs_eq_max_neg] at hnearInf htieInf hnearMax
  constructor
  · intro hle
    have hx : bitsMag infBits * d ≤ bitsMag r * d := Nat.mul_le_mul_right d (bitsMag_strictMono.monotone hle)
    rw [hinf] at hx
    omega
  · intro hn
    by_contra hlt
    have hx : bitsMag r * d ≤ bitsMag (infBits - 1) * d :=
      Nat.mul_le_mul_right d (bitsMag_strictMono.monotone (by omega))
    have hodd : r = infBits - 1 → r % 2 ≠ 0 := by rintro rfl; decide
    have hrmax : bitsMag r * d = bitsMag (infBits - 1) * d → r = infBits - 1 := fun h =>
      bitsMag_strictMono.injective (Nat.eq_of_mul_eq_mul_right hd h)
    rw [hmax] at hx hrmax
    omega

/-- A magnitude that has its own bits is rounded to them. -/
theorem roundMag_exact {b n d : Nat} (hd : 0 < d) (hb : b ≤ infBits) (hn : n = bitsMag b * d) : roundMag n d = b := by
  have hzero : |(n : Int) - bitsMag b * d| = 0 := by rw [hn]; push_cast; simp
  have hnear := (isNearestBits_roundBits n d hd b).1
  rw [hzero, abs_nonpos_iff, sub_eq_zero, hn] at hnear
  have hmul : bitsMag b * d = bitsMag (roundBits (bitsMag b * d) d) * d := by exact_mod_cast hnear
  have hbits := bitsMag_strictMono.injective (Nat.eq_of_mul_eq_mul_right hd hmul)
  rw [roundMag_eq_min, hn, ← hbits, Nat.min_eq_left hb]

end Sys2Proof.Proofs
end

section
/-! # Words that are roundings; the operations on each class of operands -/

namespace Sys2Proof.Proofs

open Sys2Proof.Machine

/-! ## Rounded words -/

theorem roundMag_lt (n d : Nat) : roundMag n d < 2 ^ 31 := by
  have := roundMag_le_infBits n d
  unfold infBits at this
  omega

theorem getLsbD_zero_pack (neg : Bool) (b : Nat) (hb : b < 2 ^ 31) (heven : b % 2 = 0) :
    (pack neg b).getLsbD 0 = false := by
  rw [← BitVec.testBit_toNat, toNat_pack neg b hb, Nat.testBit_zero, decide_eq_false_iff_not]
  split <;> omega

/-- A packed rounding is the rounding of R12 with the sign given. -/
theorem isRounding_pack (neg : Bool) (n d : Nat) (hd : 0 < d) :
    Spec.IsRounding (pack neg (roundMag n d)) neg n d := by
  have hnear := isNearestBits_roundBits n d hd
  have hlt := roundMag_lt n d
  have hbits := magBits_pack neg _ hlt
  have hinf : isInf (pack neg (roundMag n d)) = true ↔ infBits ≤ roundBits n d := by
    rw [isInf_iff, hbits, roundMag_eq_min, min_eq_right_iff]
  refine ⟨fsign_pack neg _ hlt, ?_, hinf.trans (infBits_le_iff_of_isNearestBits hd hnear), ?_⟩
  · exact isNaN_pack neg (roundMag_le_infBits n d)
  · intro hfin w _
    have hbelow : ¬ infBits ≤ roundBits n d := by rw [← hinf, hfin]; simp
    have hround : roundMag n d = roundBits n d := by rw [roundMag_eq_min, Nat.min_eq_left (by omega)]
    obtain ⟨hle, htie⟩ := hnear (magBits w)
    rw [mag_eq_bitsMag, mag_eq_bitsMag, hbits, hround]
    refine ⟨hle, fun heq hne => getLsbD_zero_pack neg _ (hround ▸ hlt) (htie heq ?_)⟩
    exact fun h => hne (congrArg bitsMag h)

theorem isRounding_roundInt (v : Int) : Spec.IsRounding (roundInt v) (decide (v < 0)) v.natAbs 1 :=
  isRounding_pack _ _ _ Nat.one_pos

theorem signed_zero (neg : Bool) : Spec.signed neg 0x00000000 = pack neg 0 := by cases neg <;> rfl

theorem signed_inf (neg : Bool) : Spec.signed neg 0x7F800000 = pack neg infBits := by cases neg <;> rfl

/-! ## Addition and subtraction -/

theorem fadd_of_isFinite (nan : Word) {a b : Word} (ha : isFinite a = true) (hb : isFinite b = true) :
    fadd nan a b = if val a + val b = 0 then pack (fsign a && fsign b) 0 else roundInt (val a + val b) := by
  simp [fadd, addNumbers, isNaN_of_isFinite ha, isNaN_of_isFinite hb, isInf_of_isFinite ha, isInf_of_isFinite hb]

theorem fadd_of_isInf (nan : Word) {a b : Word} (ha : isInf a = true) (hb : isInf b = true) :
    fadd nan a b = if fsign a = fsign b then a else nan := by
  by_cases h : fsign a = fsign b <;> simp [fadd, addNumbers, isNaN_of_isInf ha, isNaN_of_isInf hb, ha, hb, h]

theorem fadd_of_isInf_left (nan : Word) {a b : Word} (ha : isInf a = true) (hb : isFinite b = true) :
    fadd nan a b = a := by
  simp [fadd, addNumbers, isNaN_of_isInf ha, isNaN_of_isFinite hb, ha, isInf_of_isFinite hb]

theorem fadd_of_isInf_right (nan : Word) {a b : Word} (ha : isFinite a = true) (hb : isInf b = true) :
    fadd nan a b = b := by
  simp [fadd, addNumbers, isNaN_of_isInf hb, isNaN_of_isFinite ha, hb, isInf_of_isFinite ha]

theorem fadd_of_isNaN (nan : Word) {a b : Word} (h : isNaN a = true ∨ isNaN b = true) : fadd nan a b = nan := by
  rcases h with h | h <;> simp [fadd, h]

/-- R12: a − b is a + (−b), for NaNs too. -/
theorem fsub_eq_fadd_fneg (nan a b : Word) : fsub nan a b = fadd nan a (fneg b) := by
  simp only [fsub, fadd, isNaN_fneg]

/-! ## Multiplication -/

theorem fmul_of_isFinite (nan : Word) {a b : Word} (ha : isFinite a = true) (hb : isFinite b = true) :
    fmul nan a b = pack (fsign a != fsign b) (roundMag (mag a * mag b) (2 ^ 149)) := by
  simp [fmul, isNaN_of_isFinite ha, isNaN_of_isFinite hb, isInf_of_isFinite ha, isInf_of_isFinite hb]

theorem fmul_of_isInf (nan : Word) {a b : Word} (ha : isInf a = true) (hb : isInf b = true) :
    fmul nan a b = pack (fsign a != fsign b) infBits := by
  simp [fmul, isNaN_of_isInf ha, isNaN_of_isInf hb, isZero_of_isInf ha, isZero_of_isInf hb, ha]

theorem fmul_of_isInf_left (nan : Word) {a b : Word} (ha : isInf a = true) (hb : isFinite b = true) :
    fmul nan a b = if mag b = 0 then nan else pack (fsign a != fsign b) infBits := by
  simp [fmul, isNaN_of_isInf ha, isNaN_of_isFinite hb, isZero_of_isInf ha, isZero_iff, mag_eq_zero_iff, ha]

theorem fmul_comm (nan a b : Word) : fmul nan a b = fmul nan b a := by
  have hsign : (fsign a != fsign b) = (fsign b != fsign a) := Bool.xor_comm _ _
  unfold fmul
  rw [Bool.or_comm (isNaN a), Bool.or_comm (isInf a), Bool.or_comm (isZero a), Nat.mul_comm (mag a), hsign]

theorem fmul_of_isNaN (nan : Word) {a b : Word} (h : isNaN a = true ∨ isNaN b = true) : fmul nan a b = nan := by
  rcases h with h | h <;> simp [fmul, h]

/-! ## Division -/

theorem fdiv_of_isFinite (nan : Word) {a b : Word} (ha : isFinite a = true) (hb : isFinite b = true)
    (hzero : mag b ≠ 0) :
    fdiv nan a b = pack (fsign a != fsign b) (roundMag (mag a * 2 ^ 149) (mag b)) := by
  simp [fdiv, isNaN_of_isFinite ha, isNaN_of_isFinite hb, isInf_of_isFinite ha, isInf_of_isFinite hb, isZero, hzero]

theorem fdiv_by_zero (nan : Word) {a b : Word} (ha : isFinite a = true) (hb : isFinite b = true)
    (hzero : mag b = 0) :
    fdiv nan a b = if mag a = 0 then nan else pack (fsign a != fsign b) infBits := by
  simp [fdiv, isNaN_of_isFinite ha, isNaN_of_isFinite hb, isInf_of_isFinite ha, isInf_of_isFinite hb, isZero, hzero]

theorem fdiv_of_isInf (nan : Word) {a b : Word} (ha : isInf a = true) (hb : isInf b = true) :
    fdiv nan a b = nan := by
  simp [fdiv, ha, hb]

theorem fdiv_of_isInf_left (nan : Word) {a b : Word} (ha : isInf a = true) (hb : isFinite b = true) :
    fdiv nan a b = pack (fsign a != fsign b) infBits := by
  simp [fdiv, isNaN_of_isInf ha, isNaN_of_isFinite hb, isInf_of_isFinite hb, ha]

theorem fdiv_of_isInf_right (nan : Word) {a b : Word} (ha : isFinite a = true) (hb : isInf b = true) :
    fdiv nan a b = pack (fsign a != fsign b) 0 := by
  simp [fdiv, isNaN_of_isInf hb, isNaN_of_isFinite ha, isInf_of_isFinite ha, hb]

theorem fdiv_of_isNaN (nan : Word) {a b : Word} (h : isNaN a = true ∨ isNaN b = true) : fdiv nan a b = nan := by
  rcases h with h | h <;> simp [fdiv, h]

/-! ## Comparisons with a NaN -/

theorem compare_of_isNaN {a b : Word} (h : isNaN a = true ∨ isNaN b = true) :
    flt a b = false ∧ fle a b = false ∧ feq a b = false := by
  rcases h with h | h <;> simp [flt, fle, feq, h]

/-! ## The clauses of R12, one class of operands each -/

theorem rounds_of_isFinite (nan a b : Word) (ha : isFinite a = true) (hb : isFinite b = true) :
    (val a + val b ≠ 0 →
      Spec.IsRounding (fadd nan a b) (decide (val a + val b < 0)) (val a + val b).natAbs 1)
    ∧ (val a + val b = 0 → fadd nan a b = Spec.signed (fsign a && fsign b) 0x00000000)
    ∧ (val a - val b ≠ 0 →
      Spec.IsRounding (fsub nan a b) (decide (val a - val b < 0)) (val a - val b).natAbs 1)
    ∧ (val a - val b = 0 → fsub nan a b = Spec.signed (fsign a && !fsign b) 0x00000000)
    ∧ Spec.IsRounding (fmul nan a b) (fsign a != fsign b) (mag a * mag b) (2 ^ 149)
    ∧ (mag b ≠ 0 → Spec.IsRounding (fdiv nan a b) (fsign a != fsign b) (mag a * 2 ^ 149) (mag b))
    ∧ (mag b = 0 → fdiv nan a b = if mag a = 0 then nan else Spec.signed (fsign a != fsign b) 0x7F800000) := by
  have hadd := fadd_of_isFinite nan ha hb
  have hsub : fsub nan a b =
      if val a - val b = 0 then pack (fsign a && !fsign b) 0 else roundInt (val a - val b) := by
    rw [fsub_eq_fadd_fneg, fadd_of_isFinite nan ha (by simpa using hb), val_fneg, fsign_fneg, ← sub_eq_add_neg]
  refine ⟨fun h => ?_, fun h => ?_, fun h => ?_, fun h => ?_, ?_, fun h => ?_, fun h => ?_⟩
  · rw [hadd, if_neg h]; exact isRounding_roundInt _
  · rw [hadd, if_pos h, signed_zero]
  · rw [hsub, if_neg h]; exact isRounding_roundInt _
  · rw [hsub, if_pos h, signed_zero]
  · rw [fmul_of_isFinite nan ha hb]; exact isRounding_pack _ _ _ (Nat.two_pow_pos _)
  · rw [fdiv_of_isFinite nan ha hb h]; exact isRounding_pack _ _ _ (Nat.pos_of_ne_zero h)
  · rw [fdiv_by_zero nan ha hb h, signed_inf]

theorem ops_of_two_infinities (nan a b : Word) (ha : isInf a = true) (hb : isInf b = true) :
    fadd nan a b = (if fsign a = fsign b then a else nan)
    ∧ fsub nan a b = (if fsign a = fsign b then nan else a)
    ∧ fmul nan a b = Spec.signed (fsign a != fsign b) 0x7F800000
    ∧ fdiv nan a b = nan := by
  refine ⟨fadd_of_isInf nan ha hb, ?_, ?_, fdiv_of_isInf nan ha hb⟩
  · rw [fsub_eq_fadd_fneg, fadd_of_isInf nan ha (by simpa using hb), fsign_fneg]
    cases fsign a <;> cases fsign b <;> rfl
  · rw [fmul_of_isInf nan ha hb, signed_inf]

theorem ops_of_one_infinity (nan a b : Word) (ha : isInf a = true) (hb : isFinite b = true) :
    fadd nan a b = a ∧ fadd nan b a = a ∧ fsub nan a b = a ∧ fsub nan b a = a ^^^ 0x80000000
    ∧ fmul nan a b = (if mag b = 0 then nan else Spec.signed (fsign a != fsign b) 0x7F800000)
    ∧ fmul nan b a = fmul nan a b
    ∧ fdiv nan a b = Spec.signed (fsign a != fsign b) 0x7F800000
    ∧ fdiv nan b a = Spec.signed (fsign a != fsign b) 0x00000000 := by
  have hsign : (fsign b != fsign a) = (fsign a != fsign b) := Bool.xor_comm _ _
  refine ⟨fadd_of_isInf_left nan ha hb, fadd_of_isInf_right nan hb ha, ?_, ?_, ?_, fmul_comm nan b a, ?_, ?_⟩
  · rw [fsub_eq_fadd_fneg, fadd_of_isInf_left nan ha (by simpa using hb)]
  · rw [fsub_eq_fadd_fneg, fadd_of_isInf_right nan hb (by simpa using ha)]; rfl
  · rw [fmul_of_isInf_left nan ha hb, signed_inf]
  · rw [fdiv_of_isInf_left nan ha hb, signed_inf]
  · rw [fdiv_of_isInf_right nan hb ha, signed_zero, hsign]

theorem ops_of_isNaN (nan a b : Word) (h : isNaN a = true ∨ isNaN b = true) :
    fadd nan a b = nan ∧ fsub nan a b = nan ∧ fmul nan a b = nan ∧ fdiv nan a b = nan
    ∧ flt a b = false ∧ fle a b = false ∧ feq a b = false := by
  refine ⟨fadd_of_isNaN nan h, ?_, fmul_of_isNaN nan h, fdiv_of_isNaN nan h, compare_of_isNaN h⟩
  rw [fsub_eq_fadd_fneg, fadd_of_isNaN nan (by rwa [isNaN_fneg])]

/-- Settles O59: the nearest bits among all of unbounded exponent decide both the finite roundings and the overflow;
each operation is that rounding of its exact result on finite operands, and is read off per class on the others. -/
theorem roundingIsNearestTiesToEven : Obligations.RoundingIsNearestTiesToEven := by
  refine ⟨fun n d hd => ?_, rounds_of_isFinite, ops_of_two_infinities, ops_of_one_infinity, ops_of_isNaN,
    fun a b ha hb => ⟨flt_iff ha hb, fle_iff ha hb, feq_iff ha hb⟩⟩
  have hpack : BitVec.ofNat 32 (roundMag n d) = pack false (roundMag n d) := by simp [pack]
  rw [hpack]
  exact isRounding_pack false n d hd

end Sys2Proof.Proofs
end

section
/-! # nextDown is the predecessor in the order of the values -/

namespace Sys2Proof.Proofs

open Sys2Proof.Machine

theorem magBits_lt_of_ne_negInf {a : Word} (hnan : isNaN a = false) (hs : fsign a = true) (hne : a ≠ 0xFF800000) :
    magBits a < infBits := by
  refine Nat.lt_of_le_of_ne ((isNaN_eq_false_iff a).mp hnan) fun h => hne (BitVec.eq_of_toNat_eq ?_)
  rw [toNat_eq a, hs, h]
  rfl

/-- Below either zero stands the least negative subnormal. -/
theorem nextDown_of_isZero {a : Word} (hnan : isNaN a = false) (hz : isZero a = true) : nextDown a = pack true 1 := by
  rw [nextDown, hnan, if_neg Bool.false_ne_true, if_pos hz]
  rfl

/-- Below a negative value the magnitude's bits count up. -/
theorem nextDown_of_negative {a : Word} (hz : isZero a = false) (hs : fsign a = true) (hfin : magBits a < infBits) :
    nextDown a = pack true (magBits a + 1) := by
  have hnan : isNaN a = false := (isNaN_eq_false_iff a).mpr hfin.le
  have hinf : isInf a = false := (isInf_eq_false_iff a).mpr hfin.ne
  have hword : a.toNat = 2 ^ 31 + magBits a := by rw [toNat_eq a, hs, if_pos rfl]
  unfold infBits at hfin
  simp only [nextDown, hnan, hz, hs, hinf, Bool.false_eq_true, if_false, if_true]
  apply BitVec.eq_of_toNat_eq
  rw [toNat_pack true _ (by omega), if_pos rfl]
  bv_omega

/-- Below a positive value, the infinity too, they count down. -/
theorem nextDown_of_positive {a : Word} (hnan : isNaN a = false) (hz : isZero a = false) (hs : fsign a = false) :
    nextDown a = pack false (magBits a - 1) := by
  have hpos : magBits a ≠ 0 := (isZero_eq_false_iff a).mp hz
  have hlt := magBits_lt a
  have hword : a.toNat = 0 + magBits a := by rw [toNat_eq a, hs, if_neg Bool.false_ne_true]
  simp only [nextDown, hnan, hz, hs, Bool.false_eq_true, if_false]
  apply BitVec.eq_of_toNat_eq
  rw [toNat_pack false _ (by omega), if_neg Bool.false_ne_true]
  bv_omega

/-- nextDown counts the signed bits down by one, from both zeros alike, and gives no NaN. -/
theorem nextDown_spec {a : Word} (hnan : isNaN a = false) (hne : a ≠ 0xFF800000) :
    signedBits (nextDown a) = signedBits a - 1 ∧ isNaN (nextDown a) = false := by
  have hle : magBits a ≤ infBits := (isNaN_eq_false_iff a).mp hnan
  have hlt := magBits_lt a
  cases hz : isZero a with
  | true =>
    rw [nextDown_of_isZero hnan hz, signedBits_pack true 1 (by norm_num), signedBits, (isZero_iff a).mp hz]
    exact ⟨by cases fsign a <;> rfl, by decide⟩
  | false =>
    cases hs : fsign a with
    | true =>
      have hfin := magBits_lt_of_ne_negInf hnan hs hne
      have hnext : magBits a + 1 < 2 ^ 31 := Nat.lt_of_le_of_lt hfin (by decide)
      rw [nextDown_of_negative hz hs hfin, signedBits_pack true _ hnext, signedBits, hs, if_pos rfl, if_pos rfl]
      exact ⟨by omega, isNaN_pack true hfin⟩
    | false =>
      have hpos : magBits a ≠ 0 := (isZero_eq_false_iff a).mp hz
      rw [nextDown_of_positive hnan hz hs, signedBits_pack false _ (by omega), signedBits, hs,
        if_neg Bool.false_ne_true, if_neg Bool.false_ne_true]
      exact ⟨by omega, isNaN_pack false (by omega)⟩

/-- Settles O60: on the words' signed bits, which are ordered as their values, nextDown is the predecessor. -/
theorem nextDownIsGreatestBelow : Obligations.NextDownIsGreatestBelow := by
  intro a hnan hne
  obtain ⟨hpred, hnan'⟩ := nextDown_spec hnan hne
  refine ⟨?_, fun b hb => ?_⟩
  · rw [flt_iff hnan' hnan, val_lt_val_iff, hpred]
    omega
  · have hnanb := (isNaN_of_flt hb).1
    rw [flt_iff hnanb hnan, val_lt_val_iff] at hb
    rw [fle_iff hnanb hnan', val_le_val_iff, hpred]
    omega

end Sys2Proof.Proofs
end

section
/-! # nextPow2 is the least power of two, and F is exact up to 2^24 -/

namespace Sys2Proof.Proofs

open Sys2Proof.Machine

theorem ofUnsigned_exact {n : Nat} (hn : n ≤ 2 ^ 24) :
    isFinite (ofUnsigned n) = true ∧ val (ofUnsigned n) = (n : Int) * 2 ^ 149 := by
  obtain ⟨b, hb⟩ := exists_bitsMag_eq n 149 hn
  have hfin : b < infBits := by
    rw [← bitsMag_strictMono.lt_iff_lt, hb, bitsMag_infBits]
    calc n * 2 ^ 149 ≤ 2 ^ 24 * 2 ^ 149 := Nat.mul_le_mul_right _ hn
      _ < 2 ^ 24 * 2 ^ 253 := by norm_num
  have hlt : b < 2 ^ 31 := hfin.trans (by decide)
  have hround : roundMag (n * 2 ^ 149) 1 = b := roundMag_exact Nat.one_pos hfin.le (by rw [hb, Nat.mul_one])
  have hword : ofUnsigned n = pack false b := by rw [ofUnsigned, hround]
  rw [hword, isFinite_iff, magBits_pack false b hlt, val, fsign_pack false b hlt, mag_eq_bitsMag,
    magBits_pack false b hlt, hb]
  exact ⟨hfin, by push_cast; rfl⟩

theorem nextPow2_eq_two_pow (n : Nat) : ∃ k, nextPow2 n = 2 ^ k := by
  unfold nextPow2
  split
  · exact ⟨0, rfl⟩
  · exact ⟨_, rfl⟩

theorem le_nextPow2 (n : Nat) : n ≤ nextPow2 n := by
  unfold nextPow2
  split
  next h => exact h
  next h =>
    have : n - 1 < 2 ^ ((n - 1).log2 + 1) := Nat.lt_log2_self
    omega

theorem nextPow2_le_of_le_two_pow {n k : Nat} (h : n ≤ 2 ^ k) : nextPow2 n ≤ 2 ^ k := by
  unfold nextPow2
  split
  next => exact Nat.one_le_two_pow
  next hn =>
    have hlog : (n - 1).log2 < k := (Nat.log2_lt (by omega)).mpr (by omega)
    exact Nat.pow_le_pow_right (by norm_num) hlog

/-- Settles O58: a number of at most 24 bits, scaled by 2^149, is a magnitude with bits of its own. -/
theorem integerHelpersAreExact : Obligations.IntegerHelpersAreExact :=
  ⟨fun n => ⟨nextPow2_eq_two_pow n, le_nextPow2 n, fun _ => nextPow2_le_of_le_two_pow⟩,
    fun _ => ofUnsigned_exact⟩

end Sys2Proof.Proofs
end

section
/-! # DL_RESIZE -/

namespace Sys2Proof.Proofs

open Sys2Proof.Machine

theorem capMax_lt (p : Params) : p.capMax < 2 ^ 32 := by
  have := p.capMaxLogPred.isLt
  exact Nat.pow_lt_pow_right (by norm_num) (by omega)

theorem exec_dlResize_fits {s : State} {c : Sel} {n : Word} (hr : s.life = .ready) (hc : c.toNat < s.cfg.nch.toNat)
    (hn : nextPow2 n.toNat ≤ s.par.capMax) :
    exec (.dlResize c n) s = .next ((s.dlResize c.toNat n.toNat).accept 0x23 []) := by
  simp only [exec, execDlResize, needReady_ready _ _ _ hr, needChannel_below _ _ _ _ hc, if_neg (Nat.not_lt.mpr hn)]
  rfl

theorem exec_dlResize_tooLarge {s : State} {c : Sel} {n : Word} (hr : s.life = .ready)
    (hc : c.toNat < s.cfg.nch.toNat) (hn : s.par.capMax < nextPow2 n.toNat) :
    exec (.dlResize c n) s = .next (s.reject .cfgInvalid 0x23) := by
  simp only [exec, execDlResize, needReady_ready _ _ _ hr, needChannel_below _ _ _ _ hc, if_pos hn]
  rfl

/-- Settles O36: CAP_MAX fits in a word, so CAP holds nextPow2(n) itself. -/
theorem dlResizeClearsLine : Obligations.DlResizeClearsLine := by
  intro s c n hr hc
  refine ⟨fun hn => ⟨_, exec_dlResize_fits hr hc hn, rfl, ?_⟩, exec_dlResize_tooLarge hr hc⟩
  have hline (e : Nat) : ((s.dlResize c.toNat n.toNat).accept 0x23 []).line e
      = (s.setLine c.toNat (DelayLine.resized n.toNat)).line e := rfl
  simp only [hline, State.line_setLine_same]
  refine ⟨?_, rfl, fun _ => rfl, fun e he => State.line_setLine_other s _ e _ he⟩
  rw [DelayLine.resized, BitVec.toNat_ofNat]
  exact Nat.mod_eq_of_lt (Nat.lt_of_le_of_lt hn (capMax_lt s.par))

end Sys2Proof.Proofs
end

section
/-! # What a step writes

Every command is a sequence of register writes, then at most one new LFO increment, then its response; or it is
rejected. The lemmas below say so once. A rule about a step is then a rule about one write. -/

namespace Sys2Proof.Proofs

open Sys2Proof.Machine Sys2Proof.Spec

/-! ## The parameter keys by their numbers (R92) -/

/-- The number of a parameter key. -/
def keyNumber : ParamKey → Sel
  | .ramped .depth => 0
  | .rate => 1
  | .ramped .delay => 2
  | .ramped .feedback => 3
  | .ramped .dryMix => 4
  | .ramped .wetMix => 5
  | .negativeFeedback => 6
  | .stereoPhaseOffset => 7

theorem eq_keyNumber_of_ofSel {key : Sel} {k : ParamKey} (h : ParamKey.ofSel key = some k) : key = keyNumber k := by
  unfold ParamKey.ofSel at h
  split at h <;> cases h
  all_goals exact BitVec.eq_of_toNat_eq ‹_›

theorem ofSel_of_rampKey {key : Sel} {k : RampKey} (h : RampKey.ofSel key = some k) :
    ParamKey.ofSel key = some (.ramped k) := by
  unfold RampKey.ofSel at h
  split at h <;> cases h
  assumption

theorem eq_keyNumber_of_rampKey {key : Sel} {k : RampKey} (h : RampKey.ofSel key = some k) :
    key = keyNumber (.ramped k) :=
  eq_keyNumber_of_ofSel (ofSel_of_rampKey h)

theorem eq_keyNumber_of_mem_rampKeys {key : Sel} {k : RampKey} (h : (key, k) ∈ rampKeys) :
    key = keyNumber (.ramped k) := by
  simp only [rampKeys, List.mem_cons, Prod.mk.injEq, List.not_mem_nil, or_false] at h
  rcases h with ⟨rfl, rfl⟩ | ⟨rfl, rfl⟩ | ⟨rfl, rfl⟩ | ⟨rfl, rfl⟩ | ⟨rfl, rfl⟩ <;> rfl

/-! ## One write -/

/-- Which commands write RP[k], the ramp with this key number (R25). -/
def WritesRamp (key : Sel) (i : Instr) : Prop :=
  (∃ v dur, i = .paramSet key v dur) ∨ (∃ v d, i = .rpSet key v d) ∨ i = .rpFrameValue key ∨ ∃ xs, i = .frame xs

/-- Which commands advance the phases (R175). -/
def AdvancesPhases (i : Instr) : Prop :=
  i = .lfoValueAndIncrement ∨ i = .lfoIncrement ∨ ∃ xs, i = .frame xs

/-- Which commands push a sample into line c (R110). -/
def PushesInto (c : Nat) (i : Instr) : Prop :=
  (∃ ch x, i = .dlWrite ch x ∧ ch.toNat = c) ∨ ∃ xs, i = .frame xs ∧ c < xs.length

/-- Which commands resize line c (R112, R272). -/
def Resizes (c : Nat) (i : Instr) : Prop :=
  (∃ k sr nch mf mdms, i = .configure k sr nch mf mdms ∧ c < nch.toNat) ∨ ∃ ch n, i = .dlResize ch n ∧ ch.toNat = c

/-- One write that a command may make, but for a new increment and the response. -/
inductive Write : Instr → State → State → Prop
  | count (i : Instr) (s : State) (n : Nat) : Write i s { s with free := n }
  | configuration {sr nch mf mdms : Word} {s : State} (k : Sel) (w : Waveform)
      (hok : configurationOk s.par sr nch mf mdms = true) :
      Write (.configure k sr nch mf mdms) s { s with cfg := configured s.nan w sr nch mf mdms, life := .ready }
  | release (s : State) : Write .release s s.releaseLines
  | clearSticky (mask : Word) (s : State) : Write (.statusClear mask) s (s.clearSticky mask)
  | bypPend (b : Word) (s : State) : Write (.setBypass b) s { s with bypPend := b.getLsbD 0 }
  | bypAct (s : State) : Write .blockBegin s { s with bypAct := s.bypPend }
  | rampSet {i : Instr} {s : State} (k : RampKey) (t d : Word) (hi : WritesRamp (keyNumber (.ramped k)) i) :
      Write i s (s.rpSet k t d)
  | rampAdvance {i : Instr} {s : State} (k : RampKey) (hi : WritesRamp (keyNumber (.ramped k)) i) :
      Write i s (s.rpAdvance k)
  | rate (v : Word) (dur : Option Word) (s : State) : Write (.paramSet 1 v dur) s { s with rate := v }
  | negFb (v : Word) (dur : Option Word) (s : State) : Write (.paramSet 6 v dur) s { s with negFb := toBoolean v }
  | stereo (v : Word) (dur : Option Word) (s : State) : Write (.paramSet 7 v dur) s { s with stereo := toBoolean v }
  | lineWrite {i : Instr} {s : State} {c : Nat} (x : Word) (hc : c < s.cfg.nch.toNat) (hi : PushesInto c i) :
      Write i s (s.dlWrite c x)
  | lineResize {i : Instr} {s : State} {c n : Nat} (hc : c < s.cfg.nch.toNat) (hn : nextPow2 n ≤ s.par.capMax)
      (hi : Resizes c i) : Write i s (s.dlResize c n)
  | clamp {i : Instr} {s : State} (hi : (∃ c d, i = .dlRead c d) ∨ ∃ xs, i = .frame xs) :
      Write i s (s.flag .dlyClamp)
  | lfoIncrement {i : Instr} {s : State} (hi : AdvancesPhases i) : Write i s s.lfoIncrement
  | lfoSave (s : State) : Write .lfoSave s s.lfoSave
  | lfoRestore (s : State) : Write .lfoRestore s s.lfoRestore

/-- A sequence of the writes that a command may make. -/
abbrev Writes (i : Instr) : State → State → Prop := Relation.ReflTransGen (Write i)

/-- The state after a command: rejected, or its writes and the OK response, LFOSetFrequency last where it is called. -/
inductive Answer (i : Instr) (s : State) : State → Prop
  | rejected (code : RejectCode) : Answer i s (s.reject code i.mnemonic.opc)
  | completed {u : State} (rs : List Word) (hu : Writes i s u) : Answer i s (u.accept i.mnemonic.opc rs)
  | retuned {u : State} (x : Word) (rs : List Word) (hu : Writes i s u) (hi : SetsIncrement i) :
      Answer i s ((u.setInc x).accept i.mnemonic.opc rs)

/-! ## The shared operations as writes -/

/-- A peek at the LFO draws at most a free value. -/
theorem writes_lfoOut (i : Instr) (s : State) (p : Word) : Writes i s (s.lfoOut p).2 := by
  rcases s.lfoOut_state p with h | h <;> rw [h]
  exact .single (.count i s _)

theorem writes_dlRead {i : Instr} (s : State) (c : Nat) (d : Word)
    (hi : (∃ c d, i = .dlRead c d) ∨ ∃ xs, i = .frame xs) : Writes i s (s.dlRead c d).2 := by
  rw [State.dlRead_state]
  split
  · exact .single (.clamp hi)
  · exact .refl

theorem writes_advanceRamps (xs : List Word) (s : State) : Writes (.frame xs) s s.advanceRamps := by
  have hstep (r : State) (k : RampKey) : Writes (.frame xs) r (r.rpAdvance k) :=
    .single (.rampAdvance k (.inr (.inr (.inr ⟨xs, rfl⟩))))
  exact ((((hstep s _).trans (hstep _ _)).trans (hstep _ _)).trans (hstep _ _)).trans (hstep _ _)

@[simp] theorem dlRead_cfg (s : State) (c : Nat) (d : Word) : (s.dlRead c d).2.cfg = s.cfg := by
  rw [State.dlRead_state]
  split <;> rfl

/-- One channel of a frame: a read that may clamp, a push, and after a model fault a free value. -/
theorem writes_frameChannel {xs : List Word} {s : State} (g : FrameInputs) {c : Nat} (x : Word)
    (hc : c < xs.length) (hn : c < s.cfg.nch.toNat) : Writes (.frame xs) s (s.frameChannel g c x).2 := by
  unfold State.frameChannel
  generalize delayPosition s.nan s.cfg.spm g (channelLfo s.stereo g c) = pos
  have hread : Writes (.frame xs) s (s.dlRead c pos).2 := writes_dlRead s c pos (.inr ⟨xs, rfl⟩)
  have hpush (y : Word) : Writes (.frame xs) s ((s.dlRead c pos).2.dlWrite c y) :=
    hread.tail (.lineWrite y (by rwa [dlRead_cfg]) (.inr ⟨xs, rfl, hc⟩))
  simp only
  split
  · exact (hpush _).tail (.count _ _ _)
  · exact hpush _

theorem writes_frameLoop {xs ys : List Word} {s : State} (g : FrameInputs) {c : Nat}
    (hlen : c + ys.length = xs.length) (hn : xs.length = s.cfg.nch.toNat) :
    Writes (.frame xs) s (State.frameLoop g c ys s).2 := by
  induction ys generalizing c s with
  | nil => exact .refl
  | cons y ys ih =>
    rw [List.length_cons] at hlen
    have hcfg : (s.frameChannel g c y).2.cfg = s.cfg := by rw [State.frameChannel_state]
    exact (writes_frameChannel g y (by omega) (by omega)).trans (ih (by omega) (by rwa [hcfg]))

@[simp] theorem lfoOut_cfg (s : State) (p : Word) : (s.lfoOut p).2.cfg = s.cfg := by
  rcases s.lfoOut_state p with h | h <;> rw [h]

@[simp] theorem advanceRamps_cfg (s : State) : s.advanceRamps.cfg = s.cfg := by
  simp [State.advanceRamps, State.rpAdvance]

theorem writes_renderFrame {xs : List Word} {s : State} (hn : xs.length = s.cfg.nch.toNat) :
    Writes (.frame xs) s (s.renderFrame xs).2 := by
  have hpeek (r : State) (p : Word) : Writes (.frame xs) r (r.lfoOut p).2 := writes_lfoOut _ r p
  refine Relation.ReflTransGen.tail ?_ (.lfoIncrement (.inr (.inr ⟨xs, rfl⟩)))
  refine Relation.ReflTransGen.trans ?_ (writes_frameLoop _ (Nat.zero_add _) (by simpa using hn))
  exact ((writes_advanceRamps xs s).trans (hpeek _ _)).trans (hpeek _ _)

/-- Resizing lines commutes with the change of LIFE, which R272 writes after it. -/
theorem resizeBelow_life (s : State) (n k : Nat) (l : Life) :
    ({ s with life := l } : State).resizeBelow n k = { s.resizeBelow n k with life := l } := by
  induction k with
  | zero => rfl
  | succ k ih => simp only [State.resizeBelow, ih]; rfl

theorem writes_resizeBelow {k : Sel} {sr nch mf mdms : Word} {s : State} {n m : Nat} (hm : m ≤ nch.toNat)
    (hnch : s.cfg.nch = nch) (hn : nextPow2 n ≤ s.par.capMax) :
    Writes (.configure k sr nch mf mdms) s (s.resizeBelow n m) := by
  induction m with
  | zero => exact .refl
  | succ m ih =>
    have hbefore := s.resizeBelow_lines_only n m
    refine (ih (by omega)).tail (.lineResize ?_ ?_ (.inl ⟨k, sr, nch, mf, mdms, rfl, hm⟩))
    · rw [hbefore, hnch]; exact hm
    · rwa [hbefore]

theorem configurationOk_iff (p : Params) (sr nch mf mdms : Word) :
    configurationOk p sr nch mf mdms = true ↔
      sampleRateOk sr = true ∧ nch ≠ 0 ∧ nch.toNat ≤ p.nchMax ∧ mf ≠ 0 ∧ maxDelayOk mdms = true
      ∧ feq (maxDelaySamples (nanWord p) sr mdms) fInf = false
      ∧ nextPow2 (kernelSize (nanWord p) sr mdms) ≤ p.capMax := by
  simp [configurationOk, and_assoc]

/-- The commit of R272: the registers and LIFE, the lines, then LFOSetFrequency. -/
theorem commitConfig_eq (s : State) (w : Waveform) (sr nch mf mdms : Word) :
    s.commitConfig w sr nch mf mdms =
      ((({ s with cfg := configured s.nan w sr nch mf mdms, life := .ready } : State).resizeBelow
        (kernelSize s.nan sr mdms) nch.toNat).lfoSetFrequency s.rate) := by
  have hrate (r : State) (n m : Nat) : (r.resizeBelow n m).rate = r.rate := by rw [State.resizeBelow_lines_only]
  rw [show ({ s with cfg := configured s.nan w sr nch mf mdms, life := .ready } : State)
    = { ({ s with cfg := configured s.nan w sr nch mf mdms } : State) with life := .ready } from rfl,
    resizeBelow_life]
  simp only [State.commitConfig, hrate]

/-! ## Every command is answered so -/

section Answers

variable {i : Instr} {s t u : State}

theorem answer_of_finish {rs : List Word} (hu : Writes i s u) (h : finish i.mnemonic rs u = .next t) :
    Answer i s t := by
  cases h
  exact .completed rs hu

theorem answer_of_setInc {x : Word} {rs : List Word} (hu : Writes i s u) (hi : SetsIncrement i)
    (h : finish i.mnemonic rs (u.setInc x) = .next t) : Answer i s t := by
  cases h
  exact .retuned x rs hu hi

theorem answer_of_rejected {code : RejectCode} (h : rejected code i.mnemonic s = .next t) : Answer i s t := by
  cases h
  exact .rejected code

theorem answer_of_needReady {k : Host.Outcome State Fault Refusal} (h : needReady i.mnemonic s k = .next t)
    (hk : s.life = .ready → k = .next t → Answer i s t) : Answer i s t := by
  unfold needReady at h
  split at h
  next hr => exact hk hr h
  next => exact answer_of_rejected h

theorem answer_of_needChannel {c : Sel} {k : Host.Outcome State Fault Refusal}
    (h : needChannel i.mnemonic c s k = .next t)
    (hk : c.toNat < s.cfg.nch.toNat → k = .next t → Answer i s t) : Answer i s t := by
  unfold needChannel at h
  split at h
  next hc => exact hk hc h
  next => exact answer_of_rejected h

end Answers

section Commands

variable {s t : State}

theorem answer_configure {k : Sel} {sr nch mf mdms : Word} (h : execConfigure k sr nch mf mdms s = .next t) :
    Answer (.configure k sr nch mf mdms) s t := by
  unfold execConfigure at h
  split at h
  next => exact answer_of_rejected h
  next w _ =>
    split at h
    next hok =>
      rw [commitConfig_eq] at h
      obtain ⟨-, -, -, -, -, -, hsize⟩ := (configurationOk_iff _ _ _ _ _).mp hok
      have hcfg : Writes (.configure k sr nch mf mdms) s _ := .single (.configuration k w hok)
      exact answer_of_setInc (hcfg.trans (writes_resizeBelow le_rfl rfl hsize))
        (.inr (.inr ⟨k, sr, nch, mf, mdms, rfl⟩)) h
    next => exact answer_of_rejected h

theorem answer_paramSet {key : Sel} {v : Word} {dur : Option Word} (h : execParamSet key v dur s = .next t) :
    Answer (.paramSet key v dur) s t := by
  unfold execParamSet at h
  split at h
  next => exact answer_of_rejected h
  next p hp =>
    obtain rfl := eq_keyNumber_of_ofSel hp
    cases p with
    | ramped k => exact answer_of_finish (.single (.rampSet k _ _ (.inl ⟨v, dur, rfl⟩))) h
    | rate =>
      have hrate : Writes (.paramSet 1 v dur) s _ := .single (.rate v dur s)
      simp only [State.paramSet] at h
      split at h
      · exact answer_of_setInc hrate (.inr (.inl ⟨v, dur, rfl⟩)) h
      · exact answer_of_finish hrate h
    | negativeFeedback => exact answer_of_finish (.single (.negFb v dur s)) h
    | stereoPhaseOffset => exact answer_of_finish (.single (.stereo v dur s)) h

theorem answer_paramGet {key : Sel} (h : execParamGet key s = .next t) : Answer (.paramGet key) s t := by
  unfold execParamGet at h
  split at h
  · exact answer_of_rejected h
  · exact answer_of_finish .refl h

theorem answer_frame {xs : List Word} (h : execFrame xs s = .next t) : Answer (.frame xs) s t := by
  unfold execFrame at h
  split at h
  next => cases h
  next hlen =>
    refine answer_of_needReady h fun hr h => ?_
    split at h
    · exact answer_of_finish .refl h
    · refine answer_of_finish (writes_renderFrame ?_) h
      simpa [State.frameOperands, hr] using hlen

theorem answer_dlWrite {c : Sel} {x : Word} (h : execDlWrite c x s = .next t) : Answer (.dlWrite c x) s t :=
  answer_of_needReady h fun _ h => answer_of_needChannel h fun hc h =>
    answer_of_finish (.single (.lineWrite x hc (.inl ⟨c, x, rfl, rfl⟩))) h

theorem answer_dlRead {c : Sel} {d : Word} (h : execDlRead c d s = .next t) : Answer (.dlRead c d) s t :=
  answer_of_needReady h fun _ h => answer_of_needChannel h fun _ h =>
    answer_of_finish (writes_dlRead s c.toNat d (.inl ⟨c, d, rfl⟩)) h

theorem answer_dlReadAt {c : Sel} {j : Word} (h : execDlReadAt c j s = .next t) : Answer (.dlReadAt c j) s t :=
  answer_of_needReady h fun _ h => answer_of_needChannel h fun _ h => answer_of_finish .refl h

theorem answer_dlResize {c : Sel} {n : Word} (h : execDlResize c n s = .next t) : Answer (.dlResize c n) s t := by
  refine answer_of_needReady h fun _ h => answer_of_needChannel h fun hc h => ?_
  split at h
  · exact answer_of_rejected h
  · exact answer_of_finish (.single (.lineResize hc (by omega) (.inr ⟨c, n, rfl, rfl⟩))) h

theorem answer_rpSet {key : Sel} {v d : Word} (h : execRpSet key v d s = .next t) : Answer (.rpSet key v d) s t := by
  unfold execRpSet at h
  split at h
  next => exact answer_of_rejected h
  next k hk =>
    obtain rfl := eq_keyNumber_of_rampKey hk
    exact answer_of_finish (.single (.rampSet k v d (.inr (.inl ⟨v, d, rfl⟩)))) h

theorem answer_rpFrameValue {key : Sel} (h : execRpFrameValue key s = .next t) : Answer (.rpFrameValue key) s t := by
  unfold execRpFrameValue at h
  split at h
  next => exact answer_of_rejected h
  next k hk =>
    obtain rfl := eq_keyNumber_of_rampKey hk
    exact answer_of_finish (.single (.rampAdvance k (.inr (.inr (.inl rfl))))) h

theorem answer_rpGet {key : Sel} (h : execRpGet key s = .next t) : Answer (.rpGet key) s t := by
  unfold execRpGet at h
  split at h
  · exact answer_of_rejected h
  · exact answer_of_finish .refl h

theorem exec_answer {i : Instr} (h : exec i s = .next t) : Answer i s t := by
  cases i with
  | nop => exact answer_of_finish .refl h
  | configure k sr nch mf mdms => exact answer_configure h
  | release => exact answer_of_finish (.single (.release s)) h
  | statusRead => exact answer_of_finish .refl h
  | statusClear mask => exact answer_of_finish (.single (.clearSticky mask s)) h
  | setBypass b => exact answer_of_finish (.single (.bypPend b s)) h
  | blockBegin => exact answer_of_finish (.single (.bypAct s)) h
  | paramSet key v dur => exact answer_paramSet h
  | paramGet key => exact answer_paramGet h
  | frame xs => exact answer_frame h
  | dlWrite c x => exact answer_dlWrite h
  | dlRead c d => exact answer_dlRead h
  | dlReadAt c j => exact answer_dlReadAt h
  | dlResize c n => exact answer_dlResize h
  | rpSet key v d => exact answer_rpSet h
  | rpFrameValue key => exact answer_rpFrameValue h
  | rpGet key => exact answer_rpGet h
  | lfoSetFreq f =>
    exact answer_of_needReady h fun _ h => answer_of_setInc .refl (.inl ⟨f, rfl⟩) h
  | lfoValue => exact answer_of_finish (writes_lfoOut _ s _) h
  | lfoQuadValue => exact answer_of_finish (writes_lfoOut _ s _) h
  | lfoValueAndIncrement =>
    exact answer_of_finish ((writes_lfoOut _ s _).tail (.lfoIncrement (.inl rfl))) h
  | lfoIncrement => exact answer_of_finish (.single (.lfoIncrement (.inr (.inl rfl)))) h
  | lfoSave => exact answer_of_finish (.single (.lfoSave s)) h
  | lfoRestore => exact answer_of_finish (.single (.lfoRestore s)) h

end Commands

/-! ## A step, by its writes -/

/-- A step changes nothing, rejects the front of the stream, or answers its command. -/
theorem step_answer {s t : State} (h : step s = .next t) :
    t = s
    ∨ (∃ rest code opc, t = (s.consumed rest).reject code opc)
    ∨ Runs s fun i => ∃ rest, Answer i (s.consumed rest) t := by
  rcases step_cases s with ⟨-, hs⟩ | ⟨i, rest, hr, hf, hs⟩ | ⟨why, opc, rest, -, -, hs⟩ | ⟨-, -, hs⟩ <;> rw [hs] at h
  · cases h; exact .inl rfl
  · exact .inr (.inr ⟨i, rest, hr, hf, rest, exec_answer h⟩)
  · cases h; exact .inr (.inl ⟨rest, .illegal, opc, rfl⟩)
  · cases h; exact .inl rfl

/-- What every write, every new increment, every sticky bit set and every use of the streams keeps, a step keeps. -/
theorem step_keeps {P : State → Prop} {s t : State} (hstep : step s = .next t)
    (hstreams : ∀ (r : State) input output, P r → P { r with input := input, output := output })
    (hflag : ∀ (r : State) b, P r → P (r.flag b))
    (hwrite : ∀ {i r r'}, Write i r r' → P r → P r')
    (hinc : ∀ (r : State) x, P r → P (r.setInc x)) (hs : P s) : P t := by
  have hwrites {i : Instr} {r u : State} (hw : Writes i r u) (hr : P r) : P u := by
    induction hw with
    | refl => exact hr
    | tail _ hlast ih => exact hwrite hlast ih
  rcases step_answer hstep with rfl | ⟨rest, code, opc, rfl⟩ | ⟨i, -, -, -, rest, ha⟩
  · exact hs
  · exact hstreams _ _ _ (hflag _ _ (hstreams _ rest s.output hs))
  · have hrest : P (s.consumed rest) := hstreams _ rest s.output hs
    cases ha with
    | rejected code => exact hstreams _ _ _ (hflag _ _ hrest)
    | completed rs hu => exact hstreams _ _ _ (hwrites hu hrest)
    | retuned x rs hu _ => exact hstreams _ _ _ (hinc _ x (hwrites hu hrest))

/-- Where a sequence of writes makes Q true, one of them does. -/
theorem exists_write_of_writes {Q : State → Prop} {i : Instr} {s u : State} (hw : Writes i s u) (hs : ¬ Q s)
    (hu : Q u) : ∃ r r', Write i r r' ∧ ¬ Q r ∧ Q r' := by
  induction hw with
  | refl => exact absurd hu hs
  | @tail r u _ hlast ih =>
    by_cases hr : Q r
    · exact ih hr
    · exact ⟨r, u, hlast, hr, hu⟩

/-- Where a step makes Q true, which the streams do not decide, it is a rejection, or its command makes Q true by one
write or by the new increment. -/
theorem step_change {Q : State → Prop} {s t : State} (hstep : step s = .next t)
    (hstreams : ∀ (r : State) input output, Q { r with input := input, output := output } ↔ Q r)
    (hs : ¬ Q s) (ht : Q t) :
    (∃ rest code opc, t = (s.consumed rest).reject code opc)
    ∨ (Runs s fun i => ∃ r r', Write i r r' ∧ ¬ Q r ∧ Q r')
    ∨ Runs s fun i => SetsIncrement i ∧ ∃ r x opc rs, t = (r.setInc x).accept opc rs ∧ ¬ Q r := by
  rcases step_answer hstep with rfl | hreject | ⟨i, rest₀, hr, hf, rest, ha⟩
  · exact absurd ht hs
  · exact .inl hreject
  · have hrest : ¬ Q (s.consumed rest) := fun h => hs ((hstreams s rest s.output).mp h)
    cases ha with
    | rejected code => exact .inl ⟨rest, code, _, rfl⟩
    | completed rs hu =>
      exact .inr (.inl ⟨i, rest₀, hr, hf, exists_write_of_writes hu hrest ((hstreams _ _ _).mp ht)⟩)
    | @retuned u x rs hu hi =>
      by_cases hq : Q u
      · exact .inr (.inl ⟨i, rest₀, hr, hf, exists_write_of_writes hu hrest hq⟩)
      · exact .inr (.inr ⟨i, rest₀, hr, hf, hi, u, x, _, rs, rfl, hq⟩)

end Sys2Proof.Proofs
end

section
/-! # The invariants of the configuration, the storage and the ramps -/

namespace Sys2Proof.Proofs

open Sys2Proof.Machine

/-! ## The configuration registers (R23) -/

/-- The invariant reads the parameters, LIFE and the configuration registers alone. -/
theorem configOk_congr {r r' : State} (hpar : r'.par = r.par) (hlife : r'.life = r.life) (hcfg : r'.cfg = r.cfg)
    (h : r.configOk) : r'.configOk := by
  simpa only [State.configOk, State.nan, hpar, hlife, hcfg] using h

theorem Write.keeps_par {i : Instr} {r r' : State} (hw : Write i r r') : r'.par = r.par := by
  cases hw with
  | rampSet k | rampAdvance k => exact State.setRamp_par ..
  | lfoIncrement => exact State.lfoIncrement_par _
  | _ => rfl

theorem Write.keeps_configOk {i : Instr} {r r' : State} (hw : Write i r r') (h : r.configOk) : r'.configOk := by
  cases hw with
  | configuration k w hok =>
    obtain ⟨hsr, hpos, hmax, hmf, hdelay, -, -⟩ := (configurationOk_iff _ _ _ _ _).mp hok
    exact ⟨hmax, fun _ => ⟨hsr, hpos, hmf, hdelay, rfl⟩⟩
  | release => exact ⟨h.1, fun hready => nomatch hready⟩
  | rampSet k | rampAdvance k =>
    exact configOk_congr (State.setRamp_par ..) (State.setRamp_life ..) (State.setRamp_cfg ..) h
  | lfoIncrement =>
    exact configOk_congr (State.lfoIncrement_par _) (State.lfoIncrement_life _) (State.lfoIncrement_cfg _) h
  | _ => exact h

theorem setInc_keeps_configOk (r : State) (x : Word) (h : r.configOk) : (r.setInc x).configOk :=
  configOk_congr (r.setInc_par x) (r.setInc_life x) (r.setInc_cfg x) h

/-- Settles O50: CONFIGURE writes registers that pass R271, RELEASE leaves READY, and no other write reaches them. -/
theorem stepKeepsConfigurationRanges : Obligations.StepKeepsConfigurationRanges := fun _ _ hs hstep =>
  step_keeps (P := State.configOk) hstep (fun _ _ _ h => h) (fun _ _ h => h) Write.keeps_configOk
    setInc_keeps_configOk hs

/-! ## The delay lines (R33) -/

/-- A read gives what an unlisted index reads as, or a listed entry. -/
theorem memory_get_default_or_mem {α : Type} (d : α) (m : List (Nat × α)) (a : Nat) :
    Memory.get d m a = d ∨ (a, Memory.get d m a) ∈ m := by
  induction m with
  | nil => exact .inl rfl
  | cons e m ih =>
    simp only [Memory.get]
    split
    next hkey => subst hkey; exact .inr (List.mem_cons_self ..)
    next => exact ih.imp_right (List.mem_cons_of_mem _)

theorem cleared_ok (p : Params) : DelayLine.cleared.ok p :=
  ⟨by decide, Nat.one_le_two_pow, by decide, rfl, fun _ he => nomatch he⟩

theorem line_ok {s : State} (h : s.storageOk) (c : Nat) : (s.line c).ok s.par := by
  rcases memory_get_default_or_mem DelayLine.cleared s.lines c with hget | hget
  · rw [State.line, hget]; exact cleared_ok s.par
  · exact (h.2 _ hget).2

/-- CAP is positive, so the cursor's mask keeps it below CAP. -/
theorem write_ok {p : Params} {l : DelayLine} (h : l.ok p) (x : Word) : (l.write x).ok p := by
  obtain ⟨hpow, hmax, hcursor, hwf, hinside⟩ := h
  refine ⟨hpow, hmax, ?_, Memory.wf_set _ _ _ _ hwf, fun e he => ?_⟩
  · have hmask : (l.write x).w.toNat ≤ (l.cap - 1).toNat := by
      simp only [DelayLine.write, BitVec.toNat_and]
      exact Nat.and_le_right
    have hpred : (l.cap - 1).toNat < l.cap.toNat := by bv_omega
    exact Nat.lt_of_le_of_lt hmask hpred
  · rcases Memory.mem_set _ _ _ _ _ he with rfl | hold
    · exact hcursor
    · exact hinside e hold

theorem resized_ok {p : Params} {n : Nat} (h : nextPow2 n ≤ p.capMax) : (DelayLine.resized n).ok p := by
  have hcap : (DelayLine.resized n).cap.toNat = nextPow2 n := by
    rw [DelayLine.resized, BitVec.toNat_ofNat]
    exact Nat.mod_eq_of_lt (Nat.lt_of_le_of_lt h (capMax_lt p))
  obtain ⟨k, hk⟩ := nextPow2_eq_two_pow n
  refine ⟨by rw [hcap, hk, Nat.log2_two_pow], hcap ▸ h, ?_, rfl, fun _ he => nomatch he⟩
  rw [hcap, hk]
  exact Nat.two_pow_pos k

theorem setLine_keeps_storageOk {s : State} {c : Nat} {l : DelayLine} (h : s.storageOk) (hc : c < s.par.nchMax)
    (hl : l.ok s.par) : (s.setLine c l).storageOk := by
  refine ⟨Memory.wf_set _ _ _ _ h.1, fun e he => ?_⟩
  rcases Memory.mem_set _ _ _ _ _ he with rfl | hold
  · exact ⟨hc, hl⟩
  · exact h.2 e hold

/-- The invariant reads the parameters and the lines alone. -/
theorem storageOk_congr {r r' : State} (hpar : r'.par = r.par) (hlines : r'.lines = r.lines) (h : r.storageOk) :
    r'.storageOk := by
  simpa only [State.storageOk, hpar, hlines] using h

/-- NCH is at most NCH_MAX, so a line that is written is below NCH_MAX. -/
theorem Write.keeps_storageOk {i : Instr} {r r' : State} (hw : Write i r r') (hcfg : r.configOk) (h : r.storageOk) :
    r'.storageOk := by
  cases hw with
  | release => exact ⟨rfl, fun _ he => nomatch he⟩
  | lineWrite x hc => exact setLine_keeps_storageOk h (hc.trans_le hcfg.1) (write_ok (line_ok h _) x)
  | lineResize hc hn => exact setLine_keeps_storageOk h (hc.trans_le hcfg.1) (resized_ok hn)
  | rampSet k | rampAdvance k => exact storageOk_congr (State.setRamp_par ..) (State.setRamp_lines ..) h
  | lfoIncrement => exact storageOk_congr (State.lfoIncrement_par _) (State.lfoIncrement_lines _) h
  | _ => exact h

theorem setInc_keeps_storageOk (r : State) (x : Word) (h : r.storageOk) : (r.setInc x).storageOk :=
  storageOk_congr (r.setInc_par x) (r.setInc_lines x) h

/-- Settles O49: a push and a resize keep a line inside R33's bounds; the range of NCH is kept along. -/
theorem stepKeepsStorageCanonical : Obligations.StepKeepsStorageCanonical := fun _ _ hs hcfg hstep =>
  (step_keeps (P := fun r => r.configOk ∧ r.storageOk) hstep (fun _ _ _ h => h) (fun _ _ h => h)
    (fun hw h => ⟨hw.keeps_configOk h.1, hw.keeps_storageOk h.1 h.2⟩)
    (fun r x h => ⟨setInc_keeps_configOk r x h.1, setInc_keeps_storageOk r x h.2⟩) ⟨hcfg, hs⟩).2

/-! ## The ramps (R27) -/

theorem rampsOk_iff (s : State) : s.rampsOk ↔ ∀ k, (s.ramp k).ok := by
  constructor
  · rintro ⟨hdepth, hdelay, hfeedback, hdry, hwet⟩ k
    cases k <;> assumption
  · exact fun h => ⟨h .depth, h .delay, h .feedback, h .dryMix, h .wetMix⟩

theorem ramp_set_ok (nan : Word) (r : Ramp) (t d : Word) : (r.set nan t d).ok := by
  unfold Ramp.set
  split
  · exact fun _ => rfl
  next hd => exact fun hidle => absurd hidle hd

theorem ramp_advance_ok {r : Ramp} (h : r.ok) (nan : Word) : (r.advance nan).ok := by
  unfold Ramp.advance
  split
  · exact h
  · split
    · exact fun _ => rfl
    next hrem => exact fun hidle => absurd hidle hrem

theorem setRamp_keeps_rampsOk {s : State} {k : RampKey} {r : Ramp} (h : s.rampsOk) (hr : r.ok) :
    (s.setRamp k r).rampsOk := by
  rw [rampsOk_iff] at h ⊢
  intro j
  by_cases hj : j = k
  · subst hj; rwa [State.ramp_setRamp_same]
  · rw [State.ramp_setRamp_other _ _ _ _ hj]; exact h j

@[simp] theorem ramp_lfoIncrement (s : State) (k : RampKey) : s.lfoIncrement.ramp k = s.ramp k := by
  cases k <;> simp [State.ramp]

@[simp] theorem ramp_setInc (s : State) (x : Word) (k : RampKey) : (s.setInc x).ramp k = s.ramp k := by
  cases k <;> simp [State.ramp]

/-- The invariant reads the ramps alone. -/
theorem rampsOk_congr {r r' : State} (hramp : ∀ k, r'.ramp k = r.ramp k) (h : r.rampsOk) : r'.rampsOk := by
  rw [rampsOk_iff] at h ⊢
  intro k
  rw [hramp]
  exact h k

theorem Write.keeps_rampsOk {i : Instr} {r r' : State} (hw : Write i r r') (h : r.rampsOk) : r'.rampsOk := by
  cases hw with
  | rampSet k t d => exact setRamp_keeps_rampsOk h (ramp_set_ok r.nan (r.ramp k) t d)
  | rampAdvance k => exact setRamp_keeps_rampsOk h (ramp_advance_ok ((rampsOk_iff r).mp h k) r.nan)
  | lfoIncrement => exact rampsOk_congr (ramp_lfoIncrement r) h
  | _ => exact h

/-- Settles O51: RPSet with duration 0 and the last frame of a ramp store the target in CUR; otherwise REM is not 0. -/
theorem stepKeepsIdleRampsSettled : Obligations.StepKeepsIdleRampsSettled := fun _ _ hs hstep =>
  step_keeps (P := State.rampsOk) hstep (fun _ _ _ h => h) (fun _ _ h => h) Write.keeps_rampsOk
    (fun r x => rampsOk_congr (ramp_setInc r x)) hs

/-! ## Reset (R341) -/

/-- Settles O53: no line is listed, LIFE is UNCONFIGURED, CUR and TGT are equal, and the LFO holds 0.0 and 0.25. -/
theorem resetMeetsEveryInvariant : Obligations.ResetMeetsEveryInvariant := by
  intro p
  have hstorage : (State.resetWith p).storageOk := ⟨rfl, fun _ he => nomatch he⟩
  have hconfig : (State.resetWith p).configOk := ⟨Nat.zero_le _, fun hready => nomatch hready⟩
  have hramps : (State.resetWith p).rampsOk := (rampsOk_iff _).mpr fun k _ => by cases k <;> rfl
  have hinc : incOutOfRange 0 = false := by decide
  have hzero : inUnit 0 = true := by decide
  have hquarter : inUnit 0x3E800000 = true := by decide
  have hlfo : (State.resetWith p).lfoOk := fun _ => ⟨hinc, hzero, hquarter, hzero, hquarter⟩
  exact ⟨hstorage, hconfig, hramps, hlfo⟩

end Sys2Proof.Proofs
end

section
/-! # The LFO invariant: a rounded sum stays between two words that the exact sum is between -/

namespace Sys2Proof.Proofs

open Sys2Proof.Machine

/-! ## Rounding does not pass a representable value -/

theorem mag_le_of_isFinite {w : Word} (h : isFinite w = true) : mag w ≤ (2 ^ 24 - 1) * 2 ^ 253 := by
  rw [← bitsMag_pred_infBits, mag_eq_bitsMag]
  exact bitsMag_strictMono.monotone (Nat.le_sub_one_of_lt ((isFinite_iff w).mp h))

theorem isFinite_of_not_isInf {w : Word} (hnan : isNaN w = false) (hinf : isInf w = false) : isFinite w = true :=
  (isFinite_iff w).mpr (Nat.lt_of_le_of_ne ((isNaN_eq_false_iff w).mp hnan) ((isInf_eq_false_iff w).mp hinf))

theorem isFinite_roundInt {v : Int} (h : v.natAbs ≤ (2 ^ 24 - 1) * 2 ^ 253) : isFinite (roundInt v) = true := by
  obtain ⟨-, hnan, hinf, -⟩ := isRounding_roundInt v
  refine isFinite_of_not_isInf hnan ?_
  rw [Bool.eq_false_iff, ne_eq, hinf, not_le]
  exact Nat.lt_of_le_of_lt h (by norm_num)

theorem val_eq_or_neg (w : Word) : val w = mag w ∨ val w = -mag w := by
  unfold val
  split
  · exact .inr rfl
  · exact .inl rfl

theorem val_roundInt (v : Int) :
    val (roundInt v) = if v < 0 then -(mag (roundInt v) : Int) else mag (roundInt v) := by
  obtain ⟨hsign, -⟩ := isRounding_roundInt v
  simp only [val, hsign, decide_eq_true_eq]

/-- A finite rounding is as near to the number's magnitude as any finite magnitude. -/
theorem roundInt_nearest {v : Int} {w : Word} (hv : isFinite (roundInt v) = true) (hw : isFinite w = true) :
    |(v.natAbs : Int) - mag (roundInt v)| ≤ |(v.natAbs : Int) - mag w| := by
  obtain ⟨-, -, -, hnear⟩ := isRounding_roundInt v
  simpa using (hnear (isInf_of_isFinite hv) w hw).1

/-- A magnitude m with the sign of v, as near to v as those of two bounds on v, is between the bounds: either is nearer
to v than a number beyond it. -/
theorem between_of_nearest {v lo hi : Int} {m mlo mhi : Nat} (hslo : lo = mlo ∨ lo = -mlo)
    (hshi : hi = mhi ∨ hi = -mhi) (h1 : lo ≤ v) (h2 : v ≤ hi)
    (hnearLo : |(v.natAbs : Int) - m| ≤ |(v.natAbs : Int) - mlo|)
    (hnearHi : |(v.natAbs : Int) - m| ≤ |(v.natAbs : Int) - mhi|) :
    lo ≤ (if v < 0 then -(m : Int) else m) ∧ (if v < 0 then -(m : Int) else m) ≤ hi := by
  simp only [abs_eq_max_neg] at hnearLo hnearHi
  omega

/-- A number between two finite values is between them after rounding too. -/
theorem roundInt_between {v : Int} {lo hi : Word} (hlo : isFinite lo = true) (hhi : isFinite hi = true)
    (h1 : val lo ≤ v) (h2 : v ≤ val hi) :
    isFinite (roundInt v) = true ∧ val lo ≤ val (roundInt v) ∧ val (roundInt v) ≤ val hi := by
  have hslo := val_eq_or_neg lo
  have hshi := val_eq_or_neg hi
  have hmag : v.natAbs ≤ mag lo ∨ v.natAbs ≤ mag hi := by omega
  have hfin : isFinite (roundInt v) = true := isFinite_roundInt
    (hmag.elim (·.trans (mag_le_of_isFinite hlo)) (·.trans (mag_le_of_isFinite hhi)))
  rw [val_roundInt]
  exact ⟨hfin, between_of_nearest hslo hshi h1 h2 (roundInt_nearest hfin hlo) (roundInt_nearest hfin hhi)⟩

theorem val_pack_zero (neg : Bool) : isFinite (pack neg 0) = true ∧ val (pack neg 0) = 0 := by
  cases neg <;> decide

theorem fadd_between {nan a b lo hi : Word} (ha : isFinite a = true) (hb : isFinite b = true)
    (hlo : isFinite lo = true) (hhi : isFinite hi = true)
    (h1 : val lo ≤ val a + val b) (h2 : val a + val b ≤ val hi) :
    isFinite (fadd nan a b) = true ∧ val lo ≤ val (fadd nan a b) ∧ val (fadd nan a b) ≤ val hi := by
  rw [fadd_of_isFinite nan ha hb]
  split
  next hzero =>
    obtain ⟨hfin, hval⟩ := val_pack_zero (fsign a && fsign b)
    rw [hzero] at h1 h2
    exact ⟨hfin, by rwa [hval], by rwa [hval]⟩
  next => exact roundInt_between hlo hhi h1 h2

theorem fsub_between {nan a b lo hi : Word} (ha : isFinite a = true) (hb : isFinite b = true)
    (hlo : isFinite lo = true) (hhi : isFinite hi = true)
    (h1 : val lo ≤ val a - val b) (h2 : val a - val b ≤ val hi) :
    isFinite (fsub nan a b) = true ∧ val lo ≤ val (fsub nan a b) ∧ val (fsub nan a b) ≤ val hi := by
  rw [fsub_eq_fadd_fneg]
  refine fadd_between ha (by rwa [isFinite_fneg]) hlo hhi ?_ ?_ <;> rwa [val_fneg, ← sub_eq_add_neg]

/-! ## The ranges of R30 and R31 as bounds on values -/

theorem val_f0 : val f0 = 0 := by decide
theorem val_f1 : val f1 = 2 ^ 149 := by decide
theorem val_f2 : val f2 = 2 * 2 ^ 149 := by decide
theorem val_fMinus1 : val fMinus1 = -2 ^ 149 := by decide

/-- A word whose value is between finite ones is finite. -/
theorem isFinite_of_between {lo w hi : Word} (hlo : isFinite lo = true) (hhi : isFinite hi = true)
    (hnan : isNaN w = false) (h1 : val lo ≤ val w) (h2 : val w ≤ val hi) : isFinite w = true := by
  rw [val_le_val_iff] at h1 h2
  have hblo := (isFinite_iff lo).mp hlo
  have hbhi := (isFinite_iff hi).mp hhi
  have hb := (isNaN_eq_false_iff w).mp hnan
  rw [isFinite_iff]
  unfold signedBits at h1 h2
  omega

theorem inUnit_iff (p : Word) : inUnit p = true ↔ isFinite p = true ∧ 0 ≤ val p ∧ val p < 2 ^ 149 := by
  have h0 : isNaN f0 = false := by decide
  have h1 : isNaN f1 = false := by decide
  rw [inUnit, Bool.and_eq_true]
  constructor
  · rintro ⟨hle, hlt⟩
    have hnan := (isNaN_of_flt hlt).1
    rw [fle_iff h0 hnan] at hle
    rw [flt_iff hnan h1] at hlt
    refine ⟨isFinite_of_between (lo := f0) (hi := f1) (by decide) (by decide) hnan hle hlt.le, ?_, ?_⟩
    · rwa [← val_f0]
    · rwa [← val_f1]
  · rintro ⟨hfin, hle, hlt⟩
    have hnan := isNaN_of_isFinite hfin
    rw [fle_iff h0 hnan, flt_iff hnan h1, val_f0, val_f1]
    exact ⟨hle, hlt⟩

theorem incOutOfRange_eq_false_iff (inc : Word) :
    incOutOfRange inc = false ↔ isFinite inc = true ∧ -2 ^ 149 < val inc ∧ val inc < 2 ^ 149 := by
  have h1 : isNaN f1 = false := by decide
  have hm1 : isNaN fMinus1 = false := by decide
  have hrange (hnan : isNaN inc = false) :
      (fle f1 inc || fle inc fMinus1) = false ↔ -2 ^ 149 < val inc ∧ val inc < 2 ^ 149 := by
    rw [Bool.or_eq_false_iff, Bool.eq_false_iff, Bool.eq_false_iff, ne_eq, ne_eq, fle_iff h1 hnan, fle_iff hnan hm1,
      val_f1, val_fMinus1, not_le, not_le, and_comm]
  rw [incOutOfRange, Bool.or_assoc, Bool.or_eq_false_iff]
  constructor
  · rintro ⟨hnan, hout⟩
    obtain ⟨hgt, hlt⟩ := (hrange hnan).mp hout
    refine ⟨isFinite_of_between (lo := fMinus1) (hi := f1) (by decide) (by decide) hnan ?_ ?_, hgt, hlt⟩
    · rw [val_fMinus1]; exact hgt.le
    · rw [val_f1]; exact hlt.le
  · rintro ⟨hfin, hbounds⟩
    have hnan := isNaN_of_isFinite hfin
    exact ⟨hnan, (hrange hnan).mpr hbounds⟩

/-! ## Comparisons of R174 as bounds on values -/

theorem f0_flt_iff {w : Word} (hw : isFinite w = true) : flt f0 w = true ↔ 0 < val w := by
  rw [flt_iff (by decide) (isNaN_of_isFinite hw), val_f0]

theorem flt_f0_iff {w : Word} (hw : isFinite w = true) : flt w f0 = true ↔ val w < 0 := by
  rw [flt_iff (isNaN_of_isFinite hw) (by decide), val_f0]

theorem f1_fle_iff {w : Word} (hw : isFinite w = true) : fle f1 w = true ↔ 2 ^ 149 ≤ val w := by
  rw [fle_iff (by decide) (isNaN_of_isFinite hw), val_f1]

/-! ## One advance (R174) -/

/-- The advanced phase y once it is wrapped: 1.0 itself is still possible, by rounding. -/
def wrappedPhase (nan inc y : Word) : Word :=
  if flt f0 inc && fle f1 y then fsub nan y f1
  else if flt inc f0 && flt y f0 then fadd nan y f1
  else y

theorem lfoAdvance_eq (nan inc x : Word) :
    lfoAdvance nan inc x =
      if feq (wrappedPhase nan inc (fadd nan x inc)) f1 then f0 else wrappedPhase nan inc (fadd nan x inc) := rfl

theorem wrappedPhase_eq (nan : Word) {inc y : Word} (hinc : isFinite inc = true) (hy : isFinite y = true) :
    wrappedPhase nan inc y =
      if 0 < val inc ∧ 2 ^ 149 ≤ val y then fsub nan y f1
      else if val inc < 0 ∧ val y < 0 then fadd nan y f1
      else y := by
  simp only [wrappedPhase, Bool.and_eq_true, f0_flt_iff hinc, f1_fle_iff hy, flt_f0_iff hinc, flt_f0_iff hy]

/-- Before it is wrapped a rising phase is below 2 or there by rounding, a falling one is −1 or above, and a resting one
is where it was. -/
theorem phaseSum_range (nan : Word) {inc x : Word} (hinc : incOutOfRange inc = false) (hx : inUnit x = true) :
    isFinite (fadd nan x inc) = true
    ∧ (0 ≤ val inc → val x ≤ val (fadd nan x inc) ∧ val (fadd nan x inc) ≤ 2 * 2 ^ 149)
    ∧ (val inc ≤ 0 → -2 ^ 149 ≤ val (fadd nan x inc) ∧ val (fadd nan x inc) ≤ val x) := by
  obtain ⟨hfinc, hgt, hlt⟩ := (incOutOfRange_eq_false_iff inc).mp hinc
  obtain ⟨hfx, hx0, hx1⟩ := (inUnit_iff x).mp hx
  have hrise (h : 0 ≤ val inc) := fadd_between (nan := nan) (lo := x) (hi := f2) hfx hfinc hfx (by decide)
    (by omega) (by rw [val_f2]; omega)
  have hfall (h : val inc ≤ 0) := fadd_between (nan := nan) (lo := fMinus1) (hi := x) hfx hfinc (by decide) hfx
    (by rw [val_fMinus1]; omega) (by omega)
  rw [val_f2] at hrise
  rw [val_fMinus1] at hfall
  exact ⟨(le_total 0 (val inc)).elim (fun h => (hrise h).1) fun h => (hfall h).1, fun h => (hrise h).2,
    fun h => (hfall h).2⟩

theorem wrappedPhase_range (nan : Word) {inc x : Word} (hinc : incOutOfRange inc = false) (hx : inUnit x = true) :
    isFinite (wrappedPhase nan inc (fadd nan x inc)) = true
    ∧ 0 ≤ val (wrappedPhase nan inc (fadd nan x inc)) ∧ val (wrappedPhase nan inc (fadd nan x inc)) ≤ 2 ^ 149 := by
  obtain ⟨hfinc, -, -⟩ := (incOutOfRange_eq_false_iff inc).mp hinc
  obtain ⟨-, hx0, hx1⟩ := (inUnit_iff x).mp hx
  obtain ⟨hfy, hrise, hfall⟩ := phaseSum_range nan hinc hx
  have hf0 : isFinite f0 = true := by decide
  have hf1 : isFinite f1 = true := by decide
  have hunit {z : Word} (h : isFinite z = true ∧ val f0 ≤ val z ∧ val z ≤ val f1) :
      isFinite z = true ∧ 0 ≤ val z ∧ val z ≤ 2 ^ 149 := by rwa [val_f0, val_f1] at h
  rw [wrappedPhase_eq nan hfinc hfy]
  split
  next hup => exact hunit (fsub_between hfy hf1 hf0 hf1 (by rw [val_f0, val_f1]; omega) (by rw [val_f1]; omega))
  next hup =>
    split
    next hdown => exact hunit (fadd_between hfy hf1 hf0 hf1 (by rw [val_f0, val_f1]; omega) (by rw [val_f1]; omega))
    next hdown => exact ⟨hfy, by omega, by omega⟩

/-- A phase in [0, 1) stays there (R31, R174). -/
theorem inUnit_lfoAdvance {nan inc x : Word} (hinc : incOutOfRange inc = false) (hx : inUnit x = true) :
    inUnit (lfoAdvance nan inc x) = true := by
  obtain ⟨hfin, hle0, hle1⟩ := wrappedPhase_range nan hinc hx
  rw [lfoAdvance_eq]
  split
  next => decide
  next hne =>
    rw [feq_iff (isNaN_of_isFinite hfin) (by decide), val_f1] at hne
    exact (inUnit_iff _).mpr ⟨hfin, hle0, by omega⟩

/-! ## The invariant -/

theorem lfoIncrement_keeps_lfoOk {s : State} (h : s.lfoOk) : s.lfoIncrement.lfoOk := by
  intro hf
  rw [State.lfoIncrement_faults] at hf
  obtain ⟨hinc, hph, hqp, hsav⟩ := h hf
  rw [State.lfoIncrement_specified s hf]
  exact ⟨hinc, inUnit_lfoAdvance hinc hph, inUnit_lfoAdvance hinc hqp, hsav⟩

theorem recordFault_faults_ne_nil (s : State) (r : Fault) : (s.recordFault r).faults ≠ [] := by
  intro h
  rw [State.recordFault_faults] at h
  split at h
  next hmem => simp [h] at hmem
  next => cases h

/-- An increment out of range records the fault that ends the invariant's claim (R170, R311). -/
theorem setInc_keeps_lfoOk (s : State) (x : Word) (h : s.lfoOk) : (s.setInc x).lfoOk := by
  cases hx : incOutOfRange x with
  | true =>
    rw [State.setInc_outOfRange s x hx]
    exact fun hf => absurd hf (recordFault_faults_ne_nil _ _)
  | false =>
    rw [State.setInc_inRange s x hx]
    intro hf
    obtain ⟨-, hphases⟩ := h hf
    exact ⟨hx, hphases⟩

/-- The invariant reads the LFO registers and FAULTS alone. -/
theorem lfoOk_congr {r r' : State} (hlfo : r'.lfo = r.lfo) (hfaults : r'.faults = r.faults) (h : r.lfoOk) :
    r'.lfoOk := by
  simpa only [State.lfoOk, hlfo, hfaults] using h

theorem Write.keeps_lfoOk {i : Instr} {r r' : State} (hw : Write i r r') (h : r.lfoOk) : r'.lfoOk := by
  cases hw with
  | rampSet k | rampAdvance k => exact lfoOk_congr (State.setRamp_lfo ..) (State.setRamp_faults ..) h
  | lfoIncrement => exact lfoIncrement_keeps_lfoOk h
  | lfoSave =>
    intro hf
    obtain ⟨hinc, hph, hqp, -⟩ := h hf
    exact ⟨hinc, hph, hqp, hph, hqp⟩
  | lfoRestore =>
    intro hf
    obtain ⟨hinc, -, -, hph, hqp⟩ := h hf
    exact ⟨hinc, hph, hqp, hph, hqp⟩
  | _ => exact h

/-- Settles O52: an advance wraps into [0, 1], and R174 stores 0.0 for 1.0. -/
theorem stepKeepsLfoInRange : Obligations.StepKeepsLfoInRange := fun _ _ hs hstep =>
  step_keeps (P := State.lfoOk) hstep (fun _ _ _ h => h) (fun _ _ h => h) Write.keeps_lfoOk setInc_keeps_lfoOk hs

end Sys2Proof.Proofs
end

section
/-! # The only writers of each register -/

namespace Sys2Proof.Proofs

open Sys2Proof.Machine Sys2Proof.Spec

/-! ## What one write reaches, register by register -/

section OneWrite

variable {i : Instr} {r r' : State}

theorem Write.cfg_writer (hw : Write i r r') (hne : r'.cfg ≠ r.cfg) :
    ∃ k sr nch mf mdms, i = .configure k sr nch mf mdms := by
  cases hw with
  | configuration k w hok => exact ⟨_, _, _, _, _, rfl⟩
  | rampSet k | rampAdvance k => exact absurd (State.setRamp_cfg ..) hne
  | lfoIncrement => exact absurd (State.lfoIncrement_cfg _) hne
  | _ => exact absurd rfl hne

theorem Write.life_writer (hw : Write i r r') (hne : r'.life ≠ r.life) :
    i = .release ∨ ∃ k sr nch mf mdms, i = .configure k sr nch mf mdms := by
  cases hw with
  | configuration k w hok => exact .inr ⟨_, _, _, _, _, rfl⟩
  | release => exact .inl rfl
  | rampSet k | rampAdvance k => exact absurd (State.setRamp_life ..) hne
  | lfoIncrement => exact absurd (State.lfoIncrement_life _) hne
  | _ => exact absurd rfl hne

theorem Write.ramp_writer (hw : Write i r r') {key : Sel} {k : RampKey} (hkey : (key, k) ∈ rampKeys)
    (hne : r'.ramp k ≠ r.ramp k) : WritesRamp key i := by
  have hset {j : RampKey} {x : Ramp} (hi : WritesRamp (keyNumber (.ramped j)) i)
      (hne : (r.setRamp j x).ramp k ≠ r.ramp k) : WritesRamp key i := by
    by_cases hj : k = j
    · subst hj; rwa [eq_keyNumber_of_mem_rampKeys hkey]
    · exact absurd (State.ramp_setRamp_other r _ _ x hj) hne
  cases hw with
  | rampSet j t d hi => exact hset hi hne
  | rampAdvance j hi => exact hset hi hne
  | lfoIncrement => exact absurd (ramp_lfoIncrement r k) hne
  | _ => cases k <;> exact absurd rfl hne

theorem Write.rate_writer (hw : Write i r r') (hne : r'.rate ≠ r.rate) : ∃ v dur, i = .paramSet 1 v dur := by
  cases hw with
  | rate v dur => exact ⟨v, dur, rfl⟩
  | rampSet k | rampAdvance k => exact absurd (State.setRamp_rate ..) hne
  | lfoIncrement => exact absurd (State.lfoIncrement_rate _) hne
  | _ => exact absurd rfl hne

theorem Write.negFb_writer (hw : Write i r r') (hne : r'.negFb ≠ r.negFb) : ∃ v dur, i = .paramSet 6 v dur := by
  cases hw with
  | negFb v dur => exact ⟨v, dur, rfl⟩
  | rampSet k | rampAdvance k => exact absurd (State.setRamp_negFb ..) hne
  | lfoIncrement => exact absurd (State.lfoIncrement_negFb _) hne
  | _ => exact absurd rfl hne

theorem Write.stereo_writer (hw : Write i r r') (hne : r'.stereo ≠ r.stereo) : ∃ v dur, i = .paramSet 7 v dur := by
  cases hw with
  | stereo v dur => exact ⟨v, dur, rfl⟩
  | rampSet k | rampAdvance k => exact absurd (State.setRamp_stereo ..) hne
  | lfoIncrement => exact absurd (State.lfoIncrement_stereo _) hne
  | _ => exact absurd rfl hne

theorem Write.phases_writer (hw : Write i r r') (hne : (r'.lfo.ph, r'.lfo.qp) ≠ (r.lfo.ph, r.lfo.qp)) :
    i = .lfoValueAndIncrement ∨ i = .lfoIncrement ∨ i = .lfoRestore ∨ ∃ xs, i = .frame xs := by
  cases hw with
  | lfoIncrement hi => exact hi.imp_right fun h => h.imp_right .inr
  | lfoRestore => exact .inr (.inr (.inl rfl))
  | rampSet k | rampAdvance k => exact absurd (congrArg (fun l : Lfo => (l.ph, l.qp)) (State.setRamp_lfo ..)) hne
  | _ => exact absurd rfl hne

/-- An advance writes the phases alone (R175). -/
theorem lfoIncrement_keeps_saved (s : State) :
    s.lfoIncrement.lfo.inc = s.lfo.inc
    ∧ (s.lfoIncrement.lfo.savPh, s.lfoIncrement.lfo.savQp) = (s.lfo.savPh, s.lfo.savQp) := by
  unfold State.lfoIncrement
  split <;> exact ⟨rfl, rfl⟩

theorem Write.saved_writer (hw : Write i r r') (hne : (r'.lfo.savPh, r'.lfo.savQp) ≠ (r.lfo.savPh, r.lfo.savQp)) :
    i = .lfoSave := by
  cases hw with
  | lfoSave => rfl
  | lfoIncrement => exact absurd (lfoIncrement_keeps_saved r).2 hne
  | rampSet k | rampAdvance k => exact absurd (congrArg (fun l : Lfo => (l.savPh, l.savQp)) (State.setRamp_lfo ..)) hne
  | _ => exact absurd rfl hne

theorem Write.bypPend_writer (hw : Write i r r') (hne : r'.bypPend ≠ r.bypPend) : ∃ b, i = .setBypass b := by
  cases hw with
  | bypPend b => exact ⟨b, rfl⟩
  | rampSet k | rampAdvance k => exact absurd (State.setRamp_bypPend ..) hne
  | lfoIncrement => exact absurd (State.lfoIncrement_bypPend _) hne
  | _ => exact absurd rfl hne

theorem Write.bypAct_writer (hw : Write i r r') (hne : r'.bypAct ≠ r.bypAct) : i = .blockBegin := by
  cases hw with
  | bypAct => rfl
  | rampSet k | rampAdvance k => exact absurd (State.setRamp_bypAct ..) hne
  | lfoIncrement => exact absurd (State.lfoIncrement_bypAct _) hne
  | _ => exact absurd rfl hne

theorem Write.keeps_inc (hw : Write i r r') : r'.lfo.inc = r.lfo.inc := by
  cases hw with
  | lfoIncrement => exact (lfoIncrement_keeps_saved r).1
  | rampSet k | rampAdvance k => exact congrArg Lfo.inc (State.setRamp_lfo ..)
  | _ => rfl

theorem Write.keeps_faults (hw : Write i r r') : r'.faults = r.faults := by
  cases hw with
  | lfoIncrement => exact State.lfoIncrement_faults r
  | rampSet k | rampAdvance k => exact State.setRamp_faults ..
  | _ => rfl

end OneWrite

/-! ## From a write to a step -/

/-- A register outside the streams and STICKY is changed only by a write of the step's command, or by the new
increment. -/
theorem register_change {α : Type} {f : State → α} {s t : State} (hstep : step s = .next t)
    (hrest : ∀ (r : State) input output sticky,
      f { r with input := input, output := output, sticky := sticky } = f r) (hne : f t ≠ f s) :
    (Runs s fun i => ∃ r r', Write i r r' ∧ f r' ≠ f r)
    ∨ Runs s fun i => SetsIncrement i ∧ ∃ r x opc rs, t = (r.setInc x).accept opc rs ∧ f (r.setInc x) ≠ f r := by
  have hstreams (r : State) input output :
      f { r with input := input, output := output } ≠ f s ↔ f r ≠ f s := by rw [← hrest r input output r.sticky]
  rcases step_change (Q := fun r => f r ≠ f s) hstep hstreams (fun h => h rfl) hne with
    ⟨rest, code, opc, rfl⟩ | ⟨i, rest, hr, hf, r, r', hw, hq, hq'⟩ | ⟨i, rest, hr, hf, hi, r, x, opc, rs, rfl, hq⟩
  · exact absurd (hrest s rest _ _) hne
  · rw [not_not] at hq
    exact .inl ⟨i, rest, hr, hf, r, r', hw, by rwa [hq]⟩
  · rw [not_not] at hq
    refine .inr ⟨i, rest, hr, hf, hi, r, x, opc, rs, rfl, fun h => hne ?_⟩
    exact (hrest (r.setInc x) _ _ _).trans (h.trans hq)

/-- A register that LFOSetFrequency leaves alone is changed only by a command that writes it. -/
theorem runs_of_changed {α : Type} {f : State → α} {P : Instr → Prop} {s t : State} (hstep : step s = .next t)
    (hrest : ∀ (r : State) input output sticky,
      f { r with input := input, output := output, sticky := sticky } = f r)
    (hinc : ∀ (r : State) x, f (r.setInc x) = f r)
    (hwrite : ∀ {i r r'}, Write i r r' → f r' ≠ f r → P i) (hne : f t ≠ f s) : Runs s P := by
  rcases register_change hstep hrest hne with ⟨i, rest, hr, hf, r, r', hw, hw'⟩ | ⟨_, _, _, _, _, r, x, _, _, _, hx⟩
  · exact ⟨i, rest, hr, hf, hwrite hw hw'⟩
  · exact absurd (hinc r x) hx

/-- A register that no write reaches is changed only by LFOSetFrequency. -/
theorem runs_setsIncrement {α : Type} {f : State → α} {s t : State} (hstep : step s = .next t)
    (hrest : ∀ (r : State) input output sticky,
      f { r with input := input, output := output, sticky := sticky } = f r)
    (hwrite : ∀ {i r r'}, Write i r r' → f r' = f r) (hne : f t ≠ f s) : Runs s SetsIncrement := by
  rcases register_change hstep hrest hne with ⟨_, _, _, _, r, r', hw, hw'⟩ | ⟨i, rest, hr, hf, hi, -⟩
  · exact absurd (hwrite hw) hw'
  · exact ⟨i, rest, hr, hf, hi⟩

/-! ## FAULTS -/

theorem mem_faults_setInc {s : State} {r : Fault} (x : Word) (h : r ∈ s.faults) : r ∈ (s.setInc x).faults := by
  cases hx : incOutOfRange x with
  | true =>
    rw [State.setInc_outOfRange s x hx, State.recordFault_faults]
    split
    · exact h
    · exact List.mem_cons_of_mem _ h
  | false => rwa [State.setInc_inRange s x hx]

theorem incBad_iff (inc : Word) : incBad inc ↔ incOutOfRange inc = true := by
  simp only [incOutOfRange, Bool.or_eq_true, or_assoc]
  rfl

/-- A new increment adds a fault only where it is out of range, and then flags LFO_RANGE (R170). -/
theorem incBad_of_setInc_faults {s : State} {x : Word} (hne : (s.setInc x).faults ≠ s.faults) :
    incBad x ∧ (s.setInc x).sticky.getLsbD 5 = true := by
  cases hx : incOutOfRange x with
  | true =>
    refine ⟨(incBad_iff x).mpr hx, ?_⟩
    rw [State.setInc_outOfRange s x hx, State.recordFault_sticky, State.flag_sticky, BitVec.getLsbD_or]
    exact Bool.or_eq_true_iff.mpr (.inr rfl)
  | false => exact absurd (by rw [State.setInc_inRange s x hx]) hne

/-- Settles O56: no write reaches FAULTS, and the increment that adds a fault is the last thing its command writes. -/
theorem modelFaultsOnlyGrow : Obligations.ModelFaultsOnlyGrow := by
  intro s t hstep
  refine ⟨fun r hr => ?_, fun hne => ?_⟩
  · exact step_keeps (P := fun u => r ∈ u.faults) hstep (fun _ _ _ h => h) (fun _ _ h => h)
      (fun hw h => by rwa [hw.keeps_faults]) (fun _ x h => mem_faults_setInc x h) hr
  · rcases register_change (f := State.faults) hstep (fun _ _ _ _ => rfl) hne with
      ⟨_, _, _, _, r, r', hw, hw'⟩ | ⟨i, rest, -, hf, hi, r, x, opc, rs, rfl, hx⟩
    · exact absurd hw.keeps_faults hw'
    · obtain ⟨hbad, hflag⟩ := incBad_of_setInc_faults hx
      refine ⟨?_, hflag, i, rest, hf, hi⟩
      rwa [State.accept_lfo, State.setInc_lfo]

/-! ## The delay lines -/

theorem cap_dlWrite (s : State) (c e : Nat) (x : Word) : ((s.dlWrite c x).line e).cap = (s.line e).cap := by
  by_cases h : e = c
  · subst h; rw [State.dlWrite, State.line_setLine_same, DelayLine.write_cap]
  · rw [State.dlWrite, State.line_setLine_other _ _ _ _ h]

/-- A write that changes a line tears it down, resizes it, or pushes into it and keeps its capacity. -/
theorem Write.line_writer {i : Instr} {r r' : State} (hw : Write i r r') {c : Nat} (hne : r'.line c ≠ r.line c) :
    (i = .release ∨ Resizes c i) ∨ (PushesInto c i ∧ (r'.line c).cap = (r.line c).cap) := by
  have hset {e : Nat} {l : DelayLine} (hne : (r.setLine e l).line c ≠ r.line c) : c = e := by
    by_contra he
    exact hne (State.line_setLine_other r e c l he)
  cases hw with
  | release => exact .inl (.inl rfl)
  | lineResize _ _ hi => obtain rfl := hset hne; exact .inl (.inr hi)
  | lineWrite x _ hi => obtain rfl := hset hne; exact .inr ⟨hi, cap_dlWrite ..⟩
  | rampSet k | rampAdvance k => exact absurd (congrArg (Memory.get _ · c) (State.setRamp_lines ..)) hne
  | lfoIncrement => exact absurd (congrArg (Memory.get _ · c) (State.lfoIncrement_lines _)) hne
  | _ => exact absurd rfl hne

@[simp] theorem line_setInc (s : State) (x : Word) (c : Nat) : (s.setInc x).line c = s.line c :=
  congrArg (Memory.get _ · c) (s.setInc_lines x)

theorem runs_mono {s : State} {P Q : Instr → Prop} (h : Runs s P) (hPQ : ∀ i, P i → Q i) : Runs s Q := by
  obtain ⟨i, rest, hr, hf, hP⟩ := h
  exact ⟨i, rest, hr, hf, hPQ i hP⟩

/-- A step that changes a line runs RELEASE, resizes it, or pushes into it and keeps its capacity. -/
theorem line_writer {s t : State} (hstep : step s = .next t) (c : Nat) (hne : t.line c ≠ s.line c) :
    Runs s fun i => (i = .release ∨ Resizes c i) ∨ ((t.line c).cap = (s.line c).cap ∧ PushesInto c i) := by
  by_cases hcap : (t.line c).cap = (s.line c).cap
  · have hruns := runs_of_changed (f := (State.line · c)) (P := fun i => (i = .release ∨ Resizes c i) ∨ PushesInto c i)
      hstep (fun _ _ _ _ => rfl) (fun r x => line_setInc r x c)
      (fun hw hne => (hw.line_writer hne).imp_right And.left) hne
    exact runs_mono hruns fun i h => h.imp_right fun hpush => ⟨hcap, hpush⟩
  · have hwrite {i : Instr} {r r' : State} (hw : Write i r r') (hne : (r'.line c).cap ≠ (r.line c).cap) :
        i = .release ∨ Resizes c i :=
      (hw.line_writer fun h => hne (congrArg DelayLine.cap h)).resolve_right fun h => hne h.2
    have hruns := runs_of_changed (f := fun r => (State.line r c).cap) hstep (fun _ _ _ _ => rfl)
      (fun r x => congrArg DelayLine.cap (line_setInc r x c)) hwrite hcap
    exact runs_mono hruns fun i => .inl

/-! ## STICKY -/

theorem getLsbD_mask (b : StickyBit) (n : Nat) : b.mask.getLsbD n = decide (n = b.index) := by
  have hindex : b.index < 6 := by cases b <;> decide
  have hmask : b.mask = BitVec.twoPow 6 b.index := rfl
  rw [hmask, BitVec.getLsbD_twoPow, decide_eq_true hindex, Bool.true_and]
  exact decide_eq_decide.mpr eq_comm

theorem getLsbD_or_mask (k : BitVec 6) (b : StickyBit) (n : Nat) :
    (k ||| b.mask).getLsbD n = (k.getLsbD n || decide (n = b.index)) := by
  rw [BitVec.getLsbD_or, getLsbD_mask]

/-- What a write leaves in STICKY (R41, R113, R282). -/
theorem Write.sticky_cases {i : Instr} {r r' : State} (hw : Write i r r') :
    r'.sticky = r.sticky
    ∨ (∃ mask, i = .statusClear mask ∧ r'.sticky = r.sticky &&& ~~~(mask.setWidth 6))
    ∨ (((∃ c d, i = .dlRead c d) ∨ ∃ xs, i = .frame xs) ∧ r'.sticky = r.sticky ||| StickyBit.dlyClamp.mask) := by
  cases hw with
  | clearSticky mask => exact .inr (.inl ⟨mask, rfl, rfl⟩)
  | clamp hi => exact .inr (.inr ⟨hi, rfl⟩)
  | rampSet k | rampAdvance k => exact .inl (State.setRamp_sticky ..)
  | lfoIncrement => exact .inl (State.lfoIncrement_sticky _)
  | _ => exact .inl rfl

theorem setInc_sticky_cases (s : State) (x : Word) :
    (s.setInc x).sticky = s.sticky ∨ (s.setInc x).sticky = s.sticky ||| StickyBit.lfoRange.mask := by
  cases hx : incOutOfRange x with
  | true => rw [State.setInc_outOfRange s x hx]; exact .inr rfl
  | false => rw [State.setInc_inRange s x hx]; exact .inl rfl

/-- A sticky bit that a step clears is cleared by STATUS_CLEAR (R282). -/
theorem sticky_cleared {s t : State} (hstep : step s = .next t) {b : Nat} (hb : b < 6)
    (hs : s.sticky.getLsbD b = true) (ht : t.sticky.getLsbD b = false) :
    Runs s fun i => ∃ mask, i = .statusClear mask ∧ mask.getLsbD b = true := by
  rcases step_change (Q := fun r => r.sticky.getLsbD b = false) hstep (fun _ _ _ => .rfl) (by simp [hs]) ht with
    ⟨rest, code, opc, rfl⟩ | ⟨i, rest, hr, hf, r, r', hw, hq, hq'⟩ | ⟨i, rest, -, -, -, r, x, opc, rs, rfl, hq⟩
  · have hkept : s.sticky.getLsbD b = false := by
      rw [State.reject_sticky, getLsbD_or_mask, Bool.or_eq_false_iff] at ht
      exact ht.1
    rw [hs] at hkept
    cases hkept
  · rw [Bool.not_eq_false] at hq
    rcases hw.sticky_cases with h | ⟨mask, rfl, h⟩ | ⟨-, h⟩ <;> rw [h] at hq'
    · rw [hq] at hq'; cases hq'
    · refine ⟨_, rest, hr, hf, mask, rfl, ?_⟩
      simpa [hq, hb, -BitVec.getLsbD_eq_getElem] using hq'
    · rw [getLsbD_or_mask, hq] at hq'; cases hq'
  · rw [Bool.not_eq_false] at hq
    rw [State.accept_sticky] at ht
    rcases setInc_sticky_cases r x with h | h <;> rw [h] at ht
    · rw [hq] at ht; cases ht
    · rw [getLsbD_or_mask, hq] at ht; cases ht

/-- A sticky bit that a step sets is the code's of a rejection, DLY_CLAMP by a read, or LFO_RANGE by an increment. -/
theorem sticky_set {s t : State} (hstep : step s = .next t) {b : Nat}
    (hs : s.sticky.getLsbD b = false) (ht : t.sticky.getLsbD b = true) :
    (∃ rest code opc, t = (s.consumed rest).reject code opc ∧ b = code.sticky.index)
    ∨ (b = 4 ∧ Runs s fun i => (∃ c d, i = .dlRead c d) ∨ ∃ xs, i = .frame xs)
    ∨ (b = 5 ∧ Runs s SetsIncrement) := by
  have hmask {k : BitVec 6} {e : StickyBit} (hk : ¬ k.getLsbD b = true) (h : (k ||| e.mask).getLsbD b = true) :
      b = e.index := by
    rw [getLsbD_or_mask, Bool.or_eq_true, decide_eq_true_eq] at h
    exact h.resolve_left hk
  have hs' : ¬ s.sticky.getLsbD b = true := by rw [hs]; exact Bool.false_ne_true
  rcases step_change (Q := fun r => r.sticky.getLsbD b = true) hstep (fun _ _ _ => .rfl) hs' ht with
    ⟨rest, code, opc, rfl⟩ | ⟨i, rest, hr, hf, r, r', hw, hq, hq'⟩ | ⟨i, rest, hr, hf, hi, r, x, opc, rs, rfl, hq⟩
  · exact .inl ⟨rest, code, opc, rfl, hmask hs' ht⟩
  · rcases hw.sticky_cases with h | ⟨mask, -, h⟩ | ⟨hi, h⟩ <;> rw [h] at hq'
    · exact absurd hq' hq
    · rw [BitVec.getLsbD_and, Bool.and_eq_true] at hq'
      exact absurd hq'.1 hq
    · exact .inr (.inl ⟨hmask hq hq', i, rest, hr, hf, hi⟩)
  · rw [State.accept_sticky] at ht
    rcases setInc_sticky_cases r x with h | h <;> rw [h] at ht
    · exact absurd ht hq
    · exact .inr (.inr ⟨hmask hq ht, i, rest, hr, hf, hi⟩)

theorem index_rejection_lt (code : RejectCode) : code.sticky.index < 4 := by cases code <;> decide

/-- The code of an ACK is one above the place of its sticky bit (R301). -/
theorem ackWord_code (code : RejectCode) (opc : BitVec 8) :
    ((ackWord code.number opc).extractLsb' 0 8).toNat = code.sticky.index + 1 := by
  have hlow : (ackWord code.number opc).extractLsb' 0 8 = code.number := by
    apply BitVec.eq_of_getLsbD_eq
    intro n hn
    have happend : (ackWord code.number opc).getLsbD n
        = BitVec.getLsbD (w := 16 + 8 + 8) (0#16 ++ opc ++ code.number) n := rfl
    rw [BitVec.getLsbD_extractLsb', decide_eq_true hn, Bool.true_and, Nat.zero_add, happend, BitVec.getLsbD_append,
      if_pos hn]
  rw [hlow]
  cases code <;> rfl

theorem rejection_output {s t : State} (hstep : step s = .next t) {b : Nat} (hb : b < 4)
    (hs : s.sticky.getLsbD b = false) (ht : t.sticky.getLsbD b = true) :
    ∃ w : Word, t.output = s.output ++ [w] ∧ (w.extractLsb' 0 8).toNat = b + 1 := by
  rcases sticky_set hstep hs ht with ⟨rest, code, opc, rfl, rfl⟩ | ⟨rfl, -⟩ | ⟨rfl, -⟩
  · exact ⟨_, rfl, ackWord_code code opc⟩
  · omega
  · omega

theorem dlyClamp_writer {s t : State} (hstep : step s = .next t) (hs : s.sticky.getLsbD 4 = false)
    (ht : t.sticky.getLsbD 4 = true) : Runs s fun i => (∃ c d, i = .dlRead c d) ∨ ∃ xs, i = .frame xs := by
  rcases sticky_set hstep hs ht with ⟨rest, code, opc, -, hcode⟩ | ⟨-, hruns⟩ | ⟨h, -⟩
  · exact absurd (index_rejection_lt code) (by omega)
  · exact hruns
  · omega

theorem lfoRange_writer {s t : State} (hstep : step s = .next t) (hs : s.sticky.getLsbD 5 = false)
    (ht : t.sticky.getLsbD 5 = true) : Runs s SetsIncrement := by
  rcases sticky_set hstep hs ht with ⟨rest, code, opc, -, hcode⟩ | ⟨h, -⟩ | ⟨-, hruns⟩
  · exact absurd (index_rejection_lt code) (by omega)
  · omega
  · exact hruns

/-! ## All registers -/

/-- Settles O57: each register is changed by the rejection, the write or the increment that reaches it, and each of
these names its commands. -/
theorem registersHaveTheirOnlyWriters : Obligations.RegistersHaveTheirOnlyWriters := by
  intro s t hstep
  have hpar : t.par = s.par := step_keeps (P := fun r => r.par = s.par) hstep (fun _ _ _ h => h) (fun _ _ h => h)
    (fun hw h => hw.keeps_par.trans h) (fun r x h => (r.setInc_par x).trans h) rfl
  refine ⟨hpar,
    runs_of_changed (f := State.cfg) hstep (fun _ _ _ _ => rfl) State.setInc_cfg Write.cfg_writer,
    runs_of_changed (f := State.life) hstep (fun _ _ _ _ => rfl) State.setInc_life Write.life_writer,
    fun key k hkey => runs_of_changed (f := (State.ramp · k)) hstep (fun _ _ _ _ => by cases k <;> rfl)
      (fun r x => ramp_setInc r x k) fun hw => hw.ramp_writer hkey,
    runs_of_changed (f := State.rate) hstep (fun _ _ _ _ => rfl) State.setInc_rate Write.rate_writer,
    runs_of_changed (f := State.negFb) hstep (fun _ _ _ _ => rfl) State.setInc_negFb Write.negFb_writer,
    runs_of_changed (f := State.stereo) hstep (fun _ _ _ _ => rfl) State.setInc_stereo Write.stereo_writer,
    fun h => runs_of_changed (f := fun r => (r.lfo.ph, r.lfo.qp)) hstep (fun _ _ _ _ => rfl)
      (fun r x => by rw [State.setInc_lfo]) Write.phases_writer (by rwa [ne_eq, Prod.mk.injEq, not_and_or]),
    runs_setsIncrement (f := fun r => r.lfo.inc) hstep (fun _ _ _ _ => rfl) Write.keeps_inc,
    fun h => runs_of_changed (f := fun r => (r.lfo.savPh, r.lfo.savQp)) hstep (fun _ _ _ _ => rfl)
      (fun r x => by rw [State.setInc_lfo]) Write.saved_writer (by rwa [ne_eq, Prod.mk.injEq, not_and_or]),
    runs_of_changed (f := State.bypPend) hstep (fun _ _ _ _ => rfl) State.setInc_bypPend Write.bypPend_writer,
    runs_of_changed (f := State.bypAct) hstep (fun _ _ _ _ => rfl) State.setInc_bypAct Write.bypAct_writer,
    fun c hne => runs_mono (line_writer hstep c hne) ?_,
    fun b hb => sticky_cleared hstep hb,
    fun b hb => rejection_output hstep hb,
    dlyClamp_writer hstep,
    lfoRange_writer hstep,
    runs_setsIncrement (f := State.faults) hstep (fun _ _ _ _ => rfl) Write.keeps_faults⟩
  rintro i ((hrelease | hconfigure | hresize) | hpush)
  · exact .inl hrelease
  · exact .inr (.inl hconfigure)
  · exact .inr (.inr (.inl hresize))
  · exact .inr (.inr (.inr hpush))

end Sys2Proof.Proofs
end

section
/-! # The STATUS word, bit by bit (R40) -/

namespace Sys2Proof.Proofs

open Sys2Proof.Machine Sys2Proof.Spec

theorem getLsbD_bitAt (n : Nat) (b : Bool) (i : Nat) (hi : i < 32) :
    (bitAt n b).getLsbD i = (decide (i = n) && b) := by
  cases b with
  | false => simp [bitAt]
  | true =>
    simp only [bitAt, if_true, BitVec.getLsbD_shiftLeft, BitVec.getLsbD_one, Bool.and_true]
    rw [Bool.eq_iff_iff]
    simp only [hi, Bool.and_eq_true, Bool.not_eq_true', decide_eq_true_eq, decide_eq_false_iff_not, true_and]
    omega

/-- Every bit of STATUS: the sticky bits, one bit per flag, and the two bits of the waveform's code. -/
theorem getLsbD_statusWord (s : State) (i : Nat) (hi : i < 32) :
    s.statusWord.getLsbD i =
      (s.sticky.getLsbD i
      || (decide (i = 8) && s.life == .ready) || (decide (i = 9) && s.bypAct) || (decide (i = 10) && s.bypPend)
      || (decide (i = 11) && s.negFb) || (decide (i = 12) && s.stereo)
      || (decide (i = 16) && s.depth.ramping) || (decide (i = 18) && s.delay.ramping)
      || (decide (i = 19) && s.feedback.ramping) || (decide (i = 20) && s.dryMix.ramping)
      || (decide (i = 21) && s.wetMix.ramping)
      || (!decide (i < 24) && s.cfg.wf.code.getLsbD (i - 24))) := by
  have hi' : i - 24 < 32 := by omega
  simp only [State.statusWord, BitVec.getLsbD_or, BitVec.getLsbD_setWidth, BitVec.getLsbD_shiftLeft,
    getLsbD_bitAt _ _ _ hi, hi, hi', decide_true, Bool.true_and]

/-- Outside bits 5:0 a sticky bit reads 0. -/
theorem sticky_above (s : State) {i : Nat} (hi : 6 ≤ i) : s.sticky.getLsbD i = false :=
  BitVec.getLsbD_of_ge _ _ hi

theorem code_above (w : Waveform) {i : Nat} (hi : 2 ≤ i) : w.code.getLsbD i = false :=
  BitVec.getLsbD_of_ge _ _ hi

theorem statusWord_sticky (s : State) {b : Nat} (hb : b < 6) : s.statusWord.getLsbD b = s.sticky.getLsbD b := by
  have hlow (n : Nat) (hn : 6 ≤ n) : decide (b = n) = false := decide_eq_false (by omega)
  rw [getLsbD_statusWord s b (by omega)]
  simp [hlow, show b < 24 by omega]

/-- The places from bit 6 up that R40 gives no flag and no code read 0. -/
theorem statusWord_reserved (s : State) {b : Nat} (hb : b < 32)
    (hfree : b = 6 ∨ b = 7 ∨ (13 ≤ b ∧ b < 16) ∨ b = 17 ∨ b = 22 ∨ b = 23 ∨ 26 ≤ b) :
    s.statusWord.getLsbD b = false := by
  have hflag (n : Nat) (hn : n ∈ [8, 9, 10, 11, 12, 16, 18, 19, 20, 21]) : decide (b = n) = false := by
    simp only [List.mem_cons, List.not_mem_nil, or_false] at hn
    exact decide_eq_false (by omega)
  have hcode : (!decide (b < 24) && s.cfg.wf.code.getLsbD (b - 24)) = false := by
    by_cases h : b < 24
    · simp [h]
    · rw [code_above _ (by omega), Bool.and_false]
  rw [getLsbD_statusWord s b hb, hcode, sticky_above s (by omega)]
  simp [hflag]

/-- The ramp bits of R40, at 16 plus the key. -/
theorem statusWord_ramp (s : State) (k : RampKey) :
    s.statusWord.getLsbD (16 + (keyNumber (.ramped k)).toNat) = (s.ramp k).ramping := by
  rw [getLsbD_statusWord _ _ (by cases k <;> decide), sticky_above s (Nat.le_add_right_of_le (by decide))]
  cases k <;> simp [keyNumber, State.ramp]

theorem statusWord_waveform (s : State) : s.statusWord.extractLsb' 24 2 = s.cfg.wf.code := by
  apply BitVec.eq_of_getLsbD_eq
  intro i hi
  have hflag (n : Nat) (hn : n < 24) : decide (24 + i = n) = false := decide_eq_false (by omega)
  rw [BitVec.getLsbD_extractLsb', getLsbD_statusWord _ _ (by omega), sticky_above s (by omega)]
  simp [hflag, hi, -BitVec.getLsbD_eq_getElem]

theorem code_eq_of_mem_waveforms {k : Sel} {w : Waveform} (h : (k, w) ∈ waveforms) : w.code = k.setWidth 2 := by
  simp only [waveforms, List.mem_cons, Prod.mk.injEq, List.not_mem_nil, or_false] at h
  rcases h with ⟨rfl, rfl⟩ | ⟨rfl, rfl⟩ | ⟨rfl, rfl⟩ <;> rfl

theorem ofSel_code (w : Waveform) : Waveform.ofSel (w.code.setWidth 8) = some w := by cases w <;> rfl

theorem code_injective : Function.Injective Waveform.code := fun v w h =>
  Option.some.inj (by rw [← ofSel_code v, h, ofSel_code])

/-- Settles O20: each clause reads one place of the word. -/
theorem statusReadShowsEveryBit : Obligations.StatusReadShowsEveryBit := by
  intro s
  refine ⟨s.statusWord, rfl, fun b hb => statusWord_sticky s hb, statusWord_reserved s (by decide) (by decide),
    statusWord_reserved s (by decide) (by decide), ?_, ?_, ?_, ?_, ?_,
    fun b hlo hhi => statusWord_reserved s (by omega) (by omega), fun key k hkey => ?_,
    statusWord_reserved s (by decide) (by decide), statusWord_reserved s (by decide) (by decide),
    statusWord_reserved s (by decide) (by decide), fun key w hkey => ?_,
    fun b hlo hhi => statusWord_reserved s hhi (by omega)⟩
  · simp [getLsbD_statusWord, -BitVec.getLsbD_eq_getElem]
  · simp [getLsbD_statusWord, -BitVec.getLsbD_eq_getElem]
  · simp [getLsbD_statusWord, -BitVec.getLsbD_eq_getElem]
  · simp [getLsbD_statusWord, -BitVec.getLsbD_eq_getElem]
  · simp [getLsbD_statusWord, -BitVec.getLsbD_eq_getElem]
  · rw [eq_keyNumber_of_mem_rampKeys hkey, statusWord_ramp, Ramp.ramping, bne_iff_ne]
  · rw [statusWord_waveform, ← code_eq_of_mem_waveforms hkey]
    exact code_injective.eq_iff.symm

end Sys2Proof.Proofs
end

section
/-! # The byte transport (R67), and the step on a whole command -/

namespace Sys2Proof.Proofs

open Sys2Proof.Machine

/-- The last byte needs no reduction: a word has no bits above it. -/
theorem map_toNat_wordToBytes (w : Word) :
    (wordToBytes w).map BitVec.toNat =
      [w.toNat % 256, w.toNat / 256 % 256, w.toNat / 65536 % 256, w.toNat / 16777216] := by
  have hbyte (i : Nat) : (w.extractLsb' i 8).toNat = w.toNat / 2 ^ i % 256 := by
    rw [BitVec.extractLsb'_toNat, Nat.shiftRight_eq_div_pow]
  have htop : w.toNat / 16777216 < 256 := by have := w.isLt; omega
  simp [wordToBytes, hbyte, htop]

/-- Each join of two neighbouring fields is one field; the last one is the whole word. -/
theorem bytes_joined (w : Word) :
    (w.extractLsb' 24 8 ++ w.extractLsb' 16 8 ++ w.extractLsb' 8 8 ++ w.extractLsb' 0 8 : Word) = w := by
  rw [BitVec.extractLsb'_append_extractLsb'_eq_extractLsb' (by rfl),
    BitVec.extractLsb'_append_extractLsb'_eq_extractLsb' (by rfl),
    BitVec.extractLsb'_append_extractLsb'_eq_extractLsb' (by rfl), BitVec.extractLsb'_eq_self]

/-- A word sent first is read first, whatever bytes follow it. -/
theorem wordsOfBytes_wordToBytes_append (w : Word) (bs : List Byte) :
    wordsOfBytes (wordToBytes w ++ bs) = w :: wordsOfBytes bs :=
  congrArg (· :: wordsOfBytes bs) (bytes_joined w)

theorem wordsOfBytes_flatMap_wordToBytes (ws : List Word) : wordsOfBytes (ws.flatMap wordToBytes) = ws := by
  induction ws with
  | nil => rfl
  | cons w ws ih => rw [List.flatMap_cons, wordsOfBytes_wordToBytes_append, ih]

/-- Settles O9: each byte is a digit of the word to the base 256, and the reader joins the four fields again. -/
theorem wordsTravelLittleEndian : Obligations.WordsTravelLittleEndian :=
  ⟨map_toNat_wordToBytes, wordsOfBytes_flatMap_wordToBytes⟩

/-- Settles O1: decoding with the operand count of R80 is the machine's own fetch. -/
theorem stepRunsDecodedCommand : Obligations.StepRunsDecodedCommand := by
  intro s i rest hrst _ hdecode
  have hfetch : s.fetch = .command i rest := hdecode
  exact step_of_command s i rest hrst hfetch

end Sys2Proof.Proofs
end

section
/-! # The fields of a command word (R81), and what the header decoder answers (R97, R98) -/

namespace Sys2Proof.Proofs

open Sys2Proof.Machine Sys2Proof.Spec

/-! ## A word is its four fields -/

/-- The D bit is a field of one bit between its neighbours. -/
theorem ofBool_dField (cw : Word) : BitVec.ofBool (dField cw) = cw.extractLsb' 15 1 := by
  apply BitVec.eq_of_getLsbD_eq
  intro i hi
  obtain rfl : i = 0 := by omega
  simp [dField, BitVec.getLsbD_extractLsb', -BitVec.getLsbD_eq_getElem]

theorem fields_joined (cw : Word) :
    (opcField cw ++ selField cw ++ BitVec.ofBool (dField cw) ++ rsvField cw : Word) = cw := by
  rw [ofBool_dField, opcField, selField, rsvField,
    BitVec.extractLsb'_append_extractLsb'_eq_extractLsb' (by rfl),
    BitVec.extractLsb'_append_extractLsb'_eq_extractLsb' (by rfl),
    BitVec.extractLsb'_append_extractLsb'_eq_extractLsb' (by rfl), BitVec.extractLsb'_eq_self]

theorem word_eq_iff_fields (a b : Word) :
    a = b ↔ opcField a = opcField b ∧ selField a = selField b ∧ dField a = dField b ∧ rsvField a = rsvField b := by
  refine ⟨fun h => by rw [h]; exact ⟨rfl, rfl, rfl, rfl⟩, fun ⟨hopc, hsel, hd, hrsv⟩ => ?_⟩
  rw [← fields_joined a, hopc, hsel, hd, hrsv, fields_joined]

theorem opcField_and (a b : Word) : opcField (a &&& b) = opcField a &&& opcField b := BitVec.extractLsb'_and
theorem selField_and (a b : Word) : selField (a &&& b) = selField a &&& selField b := BitVec.extractLsb'_and
theorem rsvField_and (a b : Word) : rsvField (a &&& b) = rsvField a &&& rsvField b := BitVec.extractLsb'_and
theorem dField_and (a b : Word) : dField (a &&& b) = (dField a && dField b) := BitVec.getLsbD_and ..

/-! ## Legal headers -/

/-- The uses of SEL and D that R88 leaves legal. -/
structure LegalHeader (h : Header) : Prop where
  d : h.d = true → h.op.usesD = true
  sel : h.sel ≠ 0 → h.op.usesSel = true

theorem opc_of_ofOpc {b : BitVec 8} {op : Mnemonic} (h : Mnemonic.ofOpc b = some op) : op.opc = b := by
  unfold Mnemonic.ofOpc at h
  split at h <;> cases h
  all_goals exact BitVec.eq_of_toNat_eq (Eq.symm ‹_›)

theorem checkFields_eq_ok_iff (op : Mnemonic) (sel : Sel) (d : Bool) (rsv : BitVec 15) (h : Header) :
    checkFields op sel d rsv = .ok h ↔ h = { op := op, sel := sel, d := d } ∧ rsv = 0 ∧ LegalHeader h := by
  unfold checkFields
  split
  next hrsv => exact ⟨nofun, fun ⟨_, h0, _⟩ => absurd h0 hrsv⟩
  next hrsv =>
    split
    next hd =>
      obtain ⟨hset, hunused⟩ : d = true ∧ op.usesD = false := by simpa using hd
      refine ⟨nofun, fun ⟨hh, _, hlegal⟩ => ?_⟩
      subst hh
      exact absurd (hlegal.d hset) (by simp [hunused])
    next hd =>
      split
      next hsel =>
        obtain ⟨hset, hunused⟩ : sel ≠ 0 ∧ op.usesSel = false := by simpa using hsel
        refine ⟨nofun, fun ⟨hh, _, hlegal⟩ => ?_⟩
        subst hh
        exact absurd (hlegal.sel hset) (by simp [hunused])
      next hsel =>
        refine ⟨fun hh => ?_, fun ⟨hh, _, _⟩ => by rw [hh]⟩
        cases hh
        exact ⟨rfl, by simpa using hrsv, ⟨by simpa using hd, by simpa using hsel⟩⟩

/-- The header decoder answers exactly the legal headers, each from its own command word (R81, R88, R98). -/
theorem decodeHeader_eq_ok_iff (cw : Word) (h : Header) :
    decodeHeader cw = .ok h ↔ cw = commandWord h.op h.sel h.d ∧ LegalHeader h := by
  constructor
  · intro hdec
    unfold decodeHeader at hdec
    split at hdec
    next => cases hdec
    next op hop =>
      obtain ⟨rfl, hrsv, hlegal⟩ := (checkFields_eq_ok_iff ..).mp hdec
      refine ⟨?_, hlegal⟩
      conv_lhs => rw [← fields_joined cw, hrsv, ← opc_of_ofOpc hop]
      rfl
  · rintro ⟨rfl, hlegal⟩
    exact decodeHeader_commandWord h.op h.sel h.d hlegal.d hlegal.sel

/-! ## The pattern table (R97) -/

theorem matchBits_eq_commandWord (m : Mnemonic) : m.matchBits = commandWord m 0 false := by cases m <;> rfl

/-- The table's columns are the opcode map's match and mask. -/
theorem mem_patternTable_iff (m : Mnemonic) (bits mask : Word) :
    (m, bits, mask) ∈ patternTable ↔ bits = m.matchBits ∧ mask = m.maskBits := by
  constructor
  · have hrows : ∀ row ∈ patternTable, row.2.1 = row.1.matchBits ∧ row.2.2 = row.1.maskBits := by decide
    exact hrows _
  · rintro ⟨rfl, rfl⟩
    cases m <;> decide

theorem opcField_maskBits (m : Mnemonic) : opcField m.maskBits = BitVec.allOnes 8 := by cases m <;> rfl
theorem selField_maskBits (m : Mnemonic) : selField m.maskBits = if m.usesSel then 0 else BitVec.allOnes 8 := by
  cases m <;> rfl
theorem dField_maskBits (m : Mnemonic) : dField m.maskBits = !m.usesD := by cases m <;> rfl
theorem rsvField_maskBits (m : Mnemonic) : rsvField m.maskBits = BitVec.allOnes 15 := by cases m <;> rfl

/-- A word matches a row when its OPC is the row's, its RSV is 0, and its SEL and D are 0 where unused. -/
theorem and_maskBits_eq_matchBits_iff (cw : Word) (m : Mnemonic) :
    cw &&& m.maskBits = m.matchBits ↔
      opcField cw = m.opc ∧ rsvField cw = 0 ∧ LegalHeader { op := m, sel := selField cw, d := dField cw } := by
  have hsel : selField cw &&& (if m.usesSel then 0 else BitVec.allOnes 8) = 0
      ↔ (selField cw ≠ 0 → m.usesSel = true) := by
    cases m.usesSel with
    | true => simp
    | false => rw [if_neg Bool.false_ne_true, BitVec.and_allOnes]; simp
  have hd : (dField cw && !m.usesD) = false ↔ (dField cw = true → m.usesD = true) := by
    cases m.usesD <;> simp
  have hlegal : LegalHeader { op := m, sel := selField cw, d := dField cw }
      ↔ (dField cw = true → m.usesD = true) ∧ (selField cw ≠ 0 → m.usesSel = true) :=
    ⟨fun h => ⟨h.d, h.sel⟩, fun h => ⟨h.1, h.2⟩⟩
  rw [word_eq_iff_fields, opcField_and, selField_and, dField_and, rsvField_and, opcField_maskBits,
    selField_maskBits, dField_maskBits, rsvField_maskBits, matchBits_eq_commandWord, opcField_commandWord,
    selField_commandWord, dField_commandWord, rsvField_commandWord, BitVec.and_allOnes, BitVec.and_allOnes, hsel,
    hd, hlegal]
  tauto

theorem matches_iff_decodes (cw : Word) (m : Mnemonic) :
    cw &&& m.maskBits = m.matchBits ↔ ∃ sel d, decodeHeader cw = .ok { op := m, sel := sel, d := d } := by
  rw [and_maskBits_eq_matchBits_iff]
  constructor
  · rintro ⟨hopc, hrsv, hlegal⟩
    refine ⟨selField cw, dField cw, (decodeHeader_eq_ok_iff ..).mpr ⟨?_, hlegal⟩⟩
    conv_lhs => rw [← fields_joined cw, hopc, hrsv]
    rfl
  · rintro ⟨sel, d, hdec⟩
    obtain ⟨rfl, hlegal⟩ := (decodeHeader_eq_ok_iff ..).mp hdec
    rw [opcField_commandWord, rsvField_commandWord, selField_commandWord, dField_commandWord]
    exact ⟨rfl, rfl, hlegal⟩

/-- Settles O7: field by field, a row's mask and match say what makes a header with the row's mnemonic legal. -/
theorem headerMatchesPatternTable : Obligations.HeaderMatchesPatternTable := by
  refine ⟨?_, fun cw hnone => ?_, by decide⟩
  · rintro cw ⟨m, bits, mask⟩ hrow
    obtain ⟨rfl, rfl⟩ := (mem_patternTable_iff ..).mp hrow
    exact matches_iff_decodes cw m
  · cases hdec : decodeHeader cw with
    | error e => exact ⟨e, rfl⟩
    | ok h =>
      exact absurd ((matches_iff_decodes cw h.op).mpr ⟨h.sel, h.d, hdec⟩)
        (hnone _ ((mem_patternTable_iff h.op _ _).mpr ⟨rfl, rfl⟩))

/-! ## The four conditions of R88 -/

theorem opc_eq_of_usesD {m : Mnemonic} (h : m.usesD = true) : m.opc = 0x10#8 := by
  cases m with
  | paramSet => rfl
  | _ => cases h

theorem opc_mem_selectorOpcodes {m : Mnemonic} (h : m.usesSel = true) : m.opc ∈ selectorOpcodes := by
  revert h
  cases m <;> decide

/-- None of the four conditions holds of the command word of a legal header. -/
theorem not_illegalWord_commandWord {h : Header} (hlegal : LegalHeader h) :
    ¬ IllegalWord (commandWord h.op h.sel h.d) := by
  have hopc : (commandWord h.op h.sel h.d).extractLsb' 24 8 = h.op.opc := opcField_commandWord ..
  have hsel : (commandWord h.op h.sel h.d).extractLsb' 16 8 = h.sel := selField_commandWord ..
  have hd : (commandWord h.op h.sel h.d).getLsbD 15 = h.d := dField_commandWord ..
  have hrsv : (commandWord h.op h.sel h.d).extractLsb' 0 15 = 0 := rsvField_commandWord ..
  have hrow : h.op.matchBits.extractLsb' 24 8 = h.op.opc := by
    rw [matchBits_eq_commandWord]
    exact opcField_commandWord ..
  unfold IllegalWord
  rw [hopc, hsel, hd, hrsv]
  rintro (hunassigned | hreserved | ⟨hd, hne⟩ | ⟨hsel, hnot⟩)
  · exact hunassigned _ ((mem_patternTable_iff h.op _ _).mpr ⟨rfl, rfl⟩) hrow
  · exact hreserved rfl
  · exact hne (opc_eq_of_usesD (hlegal.d hd))
  · exact hnot (opc_mem_selectorOpcodes (hlegal.sel hsel))

theorem decodeHeader_error_of_illegalWord {cw : Word} (hcw : IllegalWord cw) :
    ∃ why, decodeHeader cw = .error why := by
  cases hdec : decodeHeader cw with
  | error why => exact ⟨why, rfl⟩
  | ok h =>
    obtain ⟨rfl, hlegal⟩ := (decodeHeader_eq_ok_iff ..).mp hdec
    exact absurd hcw (not_illegalWord_commandWord hlegal)

/-- Settles O2: the header decoder refuses the word, so the step rejects it alone. -/
theorem illegalWordIsAnsweredAlone : Obligations.IllegalWordIsAnsweredAlone := by
  intro s cw ws hrst hinput hcw
  obtain ⟨why, hwhy⟩ := decodeHeader_error_of_illegalWord hcw
  have hfetch : s.fetch = .illegal why (opcField cw) ws := by
    rw [State.fetch, hinput]
    exact decode_cons_error _ cw ws why hwhy
  exact step_of_illegal s why (opcField cw) ws hrst hfetch

end Sys2Proof.Proofs
end

section
/-! # Encoding and decoding are inverse (R80, R84, R97), so no command's words begin another's -/

namespace Sys2Proof.Proofs

open Sys2Proof.Machine Sys2Proof.Laws

/-! ## From a command to its words -/

theorem headerDecodes : (i : Instr) → HeaderDecodes.Statement i
  | .nop => HeaderDecodes.nop
  | .configure wf sr nch mf mdms => HeaderDecodes.configure wf sr nch mf mdms
  | .release => HeaderDecodes.release
  | .statusRead => HeaderDecodes.statusRead
  | .statusClear mask => HeaderDecodes.statusClear mask
  | .setBypass b => HeaderDecodes.setBypass b
  | .blockBegin => HeaderDecodes.blockBegin
  | .paramSet key v dur => HeaderDecodes.paramSet key v dur
  | .paramGet key => HeaderDecodes.paramGet key
  | .frame xs => HeaderDecodes.frame xs
  | .dlWrite c x => HeaderDecodes.dlWrite c x
  | .dlRead c d => HeaderDecodes.dlRead c d
  | .dlReadAt c j => HeaderDecodes.dlReadAt c j
  | .dlResize c n => HeaderDecodes.dlResize c n
  | .rpSet key t d => HeaderDecodes.rpSet key t d
  | .rpFrameValue key => HeaderDecodes.rpFrameValue key
  | .rpGet key => HeaderDecodes.rpGet key
  | .lfoSetFreq f => HeaderDecodes.lfoSetFreq f
  | .lfoValue => HeaderDecodes.lfoValue
  | .lfoQuadValue => HeaderDecodes.lfoQuadValue
  | .lfoValueAndIncrement => HeaderDecodes.lfoValueAndIncrement
  | .lfoIncrement => HeaderDecodes.lfoIncrement
  | .lfoSave => HeaderDecodes.lfoSave
  | .lfoRestore => HeaderDecodes.lfoRestore

/-- A decoder told n takes n operands for a FRAME (R80): the one length that the command word does not give. -/
def FrameLength (n : Nat) (i : Instr) : Prop := ∀ xs, i = .frame xs → xs.length = n

theorem frameLength_frame {n : Nat} {xs : List Word} (h : xs.length = n) : FrameLength n (.frame xs) := by
  rintro _ ⟨⟩
  exact h

theorem takeList_append (mk : List Word → Instr) (xs rest : List Word) :
    takeList xs.length mk (xs ++ rest) = .command (mk xs) rest := by
  simp [takeList]

theorem takeOperands_operands {i : Instr} {n : Nat} (hn : FrameLength n i) (rest : List Word) :
    takeOperands n { op := i.mnemonic, sel := i.sel, d := i.dBit } (i.operands ++ rest) = .command i rest := by
  cases i with
  | paramSet key v dur => cases dur <;> rfl
  | frame xs =>
    obtain rfl := hn xs rfl
    exact takeList_append .frame xs rest
  | _ => rfl

theorem decode_encode {i : Instr} {n : Nat} (hn : FrameLength n i) (rest : List Word) :
    decode n (encode i ++ rest) = .command i rest := by
  rw [encode, List.cons_append, decode_cons_ok _ _ _ _ (headerDecodes i)]
  exact takeOperands_operands hn rest

/-- Settles O5: the command word gives back the header, and the header says how many operands to take. -/
theorem decodeReadsEncodedCommand : Obligations.DecodeReadsEncodedCommand :=
  fun _ _ rest _ hn => decode_encode hn rest

/-! ## From the words to the command -/

/-- Command i is what header h and operand words `as` stand for; a selector or D bit that h's opcode does not use is
not looked at. -/
structure Fits (n : Nat) (h : Header) (as : List Word) (i : Instr) : Prop where
  op : i.mnemonic = h.op
  sel : i.sel = if h.op.usesSel then h.sel else 0
  d : i.dBit = (h.op.usesD && h.d)
  operands : i.operands = as
  frame : FrameLength n i

/-- All that can come of words after a legal command word: too few of them, or a command and the words left. -/
inductive Taken (n : Nat) (h : Header) : List Word → Decoded → Prop
  | incomplete (ws : List Word) : Taken n h ws .incomplete
  | command {as : List Word} {i : Instr} (hi : Fits n h as i) (rest : List Word) :
      Taken n h (as ++ rest) (.command i rest)

section Takers

variable {n : Nat} {h : Header}

theorem taken_takeNone {i : Instr} (hi : Fits n h [] i) (ws : List Word) : Taken n h ws (takeNone i ws) :=
  .command hi ws

theorem taken_takeOne {mk : Word → Instr} (hmk : ∀ a, Fits n h [a] (mk a)) :
    (ws : List Word) → Taken n h ws (takeOne mk ws)
  | [] => .incomplete _
  | a :: rest => .command (hmk a) rest

theorem taken_takeTwo {mk : Word → Word → Instr} (hmk : ∀ a b, Fits n h [a, b] (mk a b)) :
    (ws : List Word) → Taken n h ws (takeTwo mk ws)
  | [] | [_] => .incomplete _
  | a :: b :: rest => .command (hmk a b) rest

theorem taken_takeFour {mk : Word → Word → Word → Word → Instr}
    (hmk : ∀ a b c e, Fits n h [a, b, c, e] (mk a b c e)) :
    (ws : List Word) → Taken n h ws (takeFour mk ws)
  | [] | [_] | [_, _] | [_, _, _] => .incomplete _
  | a :: b :: c :: e :: rest => .command (hmk a b c e) rest

theorem taken_takeList {mk : List Word → Instr} (hmk : ∀ as : List Word, as.length = n → Fits n h as (mk as))
    (ws : List Word) : Taken n h ws (takeList n mk ws) := by
  unfold takeList
  split
  next => exact .incomplete ws
  next hlen =>
    have hcommand := Taken.command (hmk (ws.take n) (List.length_take_of_le (Nat.not_lt.mp hlen))) (ws.drop n)
    rwa [List.take_append_drop] at hcommand

end Takers

theorem taken_takeOperands (n : Nat) (h : Header) (ws : List Word) : Taken n h ws (takeOperands n h ws) := by
  obtain ⟨op, sel, d⟩ := h
  cases op with
  | nop | release | statusRead | blockBegin | paramGet | rpFrameValue | rpGet | lfoValue | lfoQuadValue
  | lfoValueAndIncrement | lfoIncrement | lfoSave | lfoRestore =>
    exact taken_takeNone ⟨rfl, rfl, rfl, rfl, by nofun⟩ ws
  | statusClear | setBypass | dlWrite | dlRead | dlReadAt | dlResize | lfoSetFreq =>
    exact taken_takeOne (fun _ => ⟨rfl, rfl, rfl, rfl, by nofun⟩) ws
  | rpSet => exact taken_takeTwo (fun _ _ => ⟨rfl, rfl, rfl, rfl, by nofun⟩) ws
  | configure => exact taken_takeFour (fun _ _ _ _ => ⟨rfl, rfl, rfl, rfl, by nofun⟩) ws
  | paramSet =>
    cases d with
    | true => exact taken_takeTwo (fun _ _ => ⟨rfl, rfl, rfl, rfl, by nofun⟩) ws
    | false => exact taken_takeOne (fun _ => ⟨rfl, rfl, rfl, rfl, by nofun⟩) ws
  | frame => exact taken_takeList (fun _ hlen => ⟨rfl, rfl, rfl, rfl, frameLength_frame hlen⟩) ws

theorem takeOperands_ne_illegal (n : Nat) (h : Header) (ws rest : List Word) (why : DecodeError) (opc : BitVec 8) :
    takeOperands n h ws ≠ .illegal why opc rest := by
  intro heq
  have htaken := taken_takeOperands n h ws
  rw [heq] at htaken
  nomatch htaken

/-- Under a legal header no field is dropped: the command's own word is the header's. -/
theorem Fits.commandWord_eq {n : Nat} {h : Header} {as : List Word} {i : Instr} (hi : Fits n h as i)
    (hlegal : LegalHeader h) : commandWord i.mnemonic i.sel i.dBit = commandWord h.op h.sel h.d := by
  have hsel : i.sel = h.sel := by
    rw [hi.sel]
    split
    next => rfl
    next hunused => exact (not_imp_comm.mp hlegal.sel hunused).symm
  have hd : i.dBit = h.d := by
    rw [hi.d, Bool.and_eq_right_iff_imp]
    exact hlegal.d
  rw [hi.op, hsel, hd]

/-- A command is decoded from its own words and from no others. -/
theorem decode_eq_command_iff (n : Nat) (ws rest : List Word) (i : Instr) :
    decode n ws = .command i rest ↔ ws = encode i ++ rest ∧ FrameLength n i := by
  constructor
  · intro hdec
    cases ws with
    | nil => cases hdec
    | cons cw ws =>
      cases hcw : decodeHeader cw with
      | error why =>
        rw [decode_cons_error _ _ _ _ hcw] at hdec
        cases hdec
      | ok h =>
        obtain ⟨rfl, hlegal⟩ := (decodeHeader_eq_ok_iff ..).mp hcw
        have htaken := taken_takeOperands n h ws
        rw [← decode_cons_ok _ _ _ _ hcw, hdec] at htaken
        cases htaken with
        | command hi _ => rw [encode, hi.commandWord_eq hlegal, hi.operands]; exact ⟨rfl, hi.frame⟩
  · rintro ⟨rfl, hn⟩
    exact decode_encode hn rest

/-- Settles O6: a legal header is read from one word only, and the command keeps each of its fields. -/
theorem decodedCommandReencodes : Obligations.DecodedCommandReencodes := fun n ws rest i hdec =>
  ((decode_eq_command_iff n ws rest i).mp hdec).1.symm

/-- Settles O8: the words are the commands' encodings, with no word left over. -/
theorem writtenOutWordsDecode : Obligations.WrittenOutWordsDecode := by
  have hread {ws : List Word} {i : Instr} (hws : ws = encode i ++ []) (hn : FrameLength 2 i) :
      decode 2 ws = .command i [] := (decode_eq_command_iff ..).mpr ⟨hws, hn⟩
  exact ⟨hread rfl (by nofun), hread rfl (by nofun), hread rfl (by nofun), hread rfl (by nofun),
    hread rfl (frameLength_frame rfl), hread rfl (by nofun), hread rfl (by nofun)⟩

/-! ## A partly received command -/

/-- No command's words begin with the words of another, so the decoder waits for the last word of a command. -/
theorem decode_take_incomplete {i : Instr} {n k : Nat} (hn : FrameLength n i) (hk : k < (encode i).length) :
    decode n ((encode i).take k) = .incomplete := by
  cases hdec : decode n ((encode i).take k) with
  | incomplete => rfl
  | illegal why opc rest =>
    cases k with
    | zero => cases hdec
    | succ k =>
      rw [encode, List.take_succ_cons, decode_cons_ok _ _ _ _ (headerDecodes i)] at hdec
      exact absurd hdec (takeOperands_ne_illegal _ _ _ _ _ _)
  | command j rest =>
    obtain ⟨hfront, hj⟩ := (decode_eq_command_iff ..).mp hdec
    have hwhole : encode i = encode j ++ (rest ++ (encode i).drop k) := by
      rw [← List.append_assoc, ← hfront, List.take_append_drop]
    have hsame : Decoded.command i [] = .command j (rest ++ (encode i).drop k) := by
      rw [← decode_encode hn [], List.append_nil, ← decode_encode hj, ← hwhole]
    have hdrop : (encode i).drop k = [] := by
      injection hsame with _ hnil
      exact (List.append_eq_nil_iff.mp hnil.symm).2
    exact absurd (List.drop_eq_nil_iff.mp hdrop) (Nat.not_le.mpr hk)

theorem step_of_incomplete {s : State} (h : s.fetch = .incomplete) : step s = .next s := by
  rcases step_cases s with ⟨-, hs⟩ | ⟨i, rest, -, hf, -⟩ | ⟨why, opc, rest, -, hf, -⟩ | ⟨-, -, hs⟩
  · exact hs
  · cases h.symm.trans hf
  · cases h.symm.trans hf
  · exact hs

/-- Settles O3: an empty stream and the front of a command are both incomplete to the decoder. -/
theorem incompleteCommandWaits : Obligations.IncompleteCommandWaits := by
  refine ⟨fun s hrst => ?_, fun s hinput => step_of_incomplete ?_,
    fun s i k _ hinput hk hn => step_of_incomplete ?_⟩
  · simp [step, hrst, State.idle]
  · rw [State.fetch, hinput, decode]
  · rw [State.fetch, hinput]
    exact decode_take_incomplete hn hk

end Sys2Proof.Proofs
end

section
/-! # Responses (R86, R87, R96) and the rejections of the selector and lifecycle checks (R301, R305) -/

namespace Sys2Proof.Proofs

open Sys2Proof.Machine Sys2Proof.Spec

/-! ## The ACK word and a rejection, written out -/

/-- The fields of an ACK word as digits to the base 256 (R86). -/
theorem ackWord_eq_ack (code : BitVec 8) (i : Instr) : ackWord code i.mnemonic.opc = Spec.ack i code.toNat := by
  have hcode := code.isLt
  have hopc := i.mnemonic.opc.isLt
  apply BitVec.eq_of_toNat_eq
  rw [ackWord, Spec.ack, BitVec.toNat_append, BitVec.toNat_append, BitVec.toNat_ofNat,
    ← Nat.shiftLeft_add_eq_or_of_lt hcode]
  simp only [BitVec.toNat_ofNat, Nat.shiftLeft_eq, Nat.zero_mod, Nat.zero_mul, Nat.zero_or]
  omega

/-- R303, R305: what a rejected command leaves. -/
theorem rejected_eq (code : RejectCode) (i : Instr) (s : State) :
    rejected code i.mnemonic s = .next { s with
      sticky := s.sticky ||| code.sticky.mask
      output := s.output ++ [Spec.ack i code.number.toNat] } := by
  rw [← ackWord_eq_ack]
  rfl

/-! ## One response per command -/

/-- The outcome is no next state, or one whose stream has gained the one response of command i (R86, R87). -/
def Responds (i : Instr) (s : State) (o : Host.Outcome State Fault Refusal) : Prop :=
  ∀ t, o = .next t → ∃ (code : Nat) (results : List Word), code ≤ 4 ∧ t.output = s.output ++ Spec.ack i code :: results
    ∧ results.length = if code = 0 then resultCount i else 0

section Combinators

variable {i : Instr} {s u : State}

theorem responds_finish {rs : List Word} (hout : u.output = s.output) (hlen : rs.length = resultCount i) :
    Responds i s (finish i.mnemonic rs u) := by
  rintro t ⟨⟩
  refine ⟨0, rs, by decide, ?_, hlen⟩
  rw [State.accept_output, hout, ackWord_eq_ack]
  rfl

theorem responds_rejected (code : RejectCode) : Responds i s (rejected code i.mnemonic s) := by
  rw [rejected_eq]
  rintro t ⟨⟩
  exact ⟨code.number.toNat, [], by cases code <;> decide, rfl, by cases code <;> rfl⟩

theorem responds_needReady {k : Host.Outcome State Fault Refusal} (hk : Responds i s k) :
    Responds i s (needReady i.mnemonic s k) := by
  unfold needReady
  split
  · exact hk
  · exact responds_rejected .notReady

theorem responds_needChannel {c : Sel} {k : Host.Outcome State Fault Refusal} (hk : Responds i s k) :
    Responds i s (needChannel i.mnemonic c s k) := by
  unfold needChannel
  split
  · exact hk
  · exact responds_rejected .badSel

end Combinators

/-! ### What the commands' effects leave of the response stream -/

@[simp] theorem dlRead_output (s : State) (c : Nat) (d : Word) : (s.dlRead c d).2.output = s.output := by
  rw [State.dlRead_state]
  split <;> rfl

@[simp] theorem lfoOut_output (s : State) (p : Word) : (s.lfoOut p).2.output = s.output := by
  rcases s.lfoOut_state p with h | h <;> rw [h]

@[simp] theorem rpSet_output (s : State) (k : RampKey) (t d : Word) : (s.rpSet k t d).output = s.output :=
  State.setRamp_output ..

@[simp] theorem rpAdvance_output (s : State) (k : RampKey) : (s.rpAdvance k).output = s.output :=
  State.setRamp_output ..

@[simp] theorem advanceRamps_output (s : State) : s.advanceRamps.output = s.output := by simp [State.advanceRamps]

@[simp] theorem renderFrame_output (s : State) (xs : List Word) : (s.renderFrame xs).2.output = s.output := by
  simp only [State.renderFrame, State.lfoIncrement_output]
  rw [State.frameLoop_state]
  simp only [lfoOut_output, advanceRamps_output]

@[simp] theorem commitConfig_output (s : State) (w : Waveform) (sr nch mf mdms : Word) :
    (s.commitConfig w sr nch mf mdms).output = s.output := by
  rw [commitConfig_eq, State.lfoSetFrequency, State.setInc_output, State.resizeBelow_lines_only]

@[simp] theorem paramSet_output (s : State) (k : ParamKey) (v d : Word) : (s.paramSet k v d).output = s.output := by
  cases k with
  | ramped k => exact rpSet_output ..
  | rate =>
    simp only [State.paramSet]
    split
    · exact State.setInc_output ..
    · rfl
  | negativeFeedback | stereoPhaseOffset => rfl

theorem responds_frame (xs : List Word) (s : State) : Responds (.frame xs) s (execFrame xs s) := by
  unfold execFrame
  split
  · exact nofun
  · refine responds_needReady ?_
    split
    · exact responds_finish rfl rfl
    · exact responds_finish (renderFrame_output s xs) (State.renderFrame_length s xs)

theorem responds_configure (k : Sel) (sr nch mf mdms : Word) (s : State) :
    Responds (.configure k sr nch mf mdms) s (execConfigure k sr nch mf mdms s) := by
  unfold execConfigure
  split
  · exact responds_rejected .badSel
  · split
    · exact responds_finish (commitConfig_output ..) rfl
    · exact responds_rejected .cfgInvalid

theorem responds_dlResize (c : Sel) (n : Word) (s : State) : Responds (.dlResize c n) s (execDlResize c n s) := by
  refine responds_needReady (responds_needChannel ?_)
  split
  · exact responds_rejected .cfgInvalid
  · exact responds_finish rfl rfl

theorem exec_responds (i : Instr) (s : State) : Responds i s (exec i s) := by
  cases i with
  | nop | release | statusRead | statusClear | setBypass | blockBegin | lfoSave | lfoRestore =>
    exact responds_finish rfl rfl
  | configure k sr nch mf mdms => exact responds_configure k sr nch mf mdms s
  | frame xs => exact responds_frame xs s
  | paramSet | paramGet | rpSet | rpFrameValue | rpGet =>
    simp only [exec, execParamSet, execParamGet, execRpSet, execRpFrameValue, execRpGet]
    split
    · exact responds_rejected .badSel
    · exact responds_finish (by simp) rfl
  | dlWrite | dlReadAt => exact responds_needReady (responds_needChannel (responds_finish rfl rfl))
  | dlRead => exact responds_needReady (responds_needChannel (responds_finish (dlRead_output ..) rfl))
  | dlResize c n => exact responds_dlResize c n s
  | lfoSetFreq => exact responds_needReady (responds_finish (State.setInc_output ..) rfl)
  | lfoValue | lfoQuadValue => exact responds_finish (lfoOut_output ..) rfl
  | lfoValueAndIncrement => exact responds_finish ((State.lfoIncrement_output _).trans (lfoOut_output ..)) rfl
  | lfoIncrement => exact responds_finish (State.lfoIncrement_output s) rfl

/-- Settles O10: each command ends in one response, and its effects leave the response stream alone. -/
theorem everyCommandAnswersOnce : Obligations.EveryCommandAnswersOnce := fun i s t h => exec_responds i s t h

/-! ## Rejections by LIFE and by channel -/

/-- Settles O12: each of these commands checks LIFE first. -/
theorem unconfiguredAnswersNotReady : Obligations.UnconfiguredAnswersNotReady := by
  intro s i hlife hi
  have hreject (k : Host.Outcome State Fault Refusal) : needReady i.mnemonic s k = .next { s with
      sticky := s.sticky ||| 0x04, output := s.output ++ [Spec.ack i 3] } :=
    (needReady_unconfigured i.mnemonic s k hlife).trans (rejected_eq .notReady i s)
  rcases hi with rfl | ⟨c, x, rfl⟩ | ⟨c, d, rfl⟩ | ⟨c, j, rfl⟩ | ⟨c, n, rfl⟩ | ⟨f, rfl⟩
  · have hlen : ([] : List Word).length = s.frameOperands := by simp [State.frameOperands, hlife]
    simp only [exec, execFrame, if_neg (not_not_intro hlen)]
    exact hreject _
  all_goals exact hreject _

/-- Settles O13: each of these commands checks the channel once LIFE is READY. -/
theorem channelOutOfRangeIsBadSel : Obligations.ChannelOutOfRangeIsBadSel := by
  intro s i c x hlife hc hi
  have hreject (k : Host.Outcome State Fault Refusal) :
      needReady i.mnemonic s (needChannel i.mnemonic c s k) = .next { s with
        sticky := s.sticky ||| 0x02, output := s.output ++ [Spec.ack i 2] } := by
    rw [needReady_ready _ _ _ hlife, needChannel_above _ _ _ _ hc]
    exact rejected_eq .badSel i s
  rcases hi with rfl | rfl | rfl | rfl <;> exact hreject _

/-! ## Rejections by key and by waveform code -/

theorem ofSel_keyNumber (k : ParamKey) : ParamKey.ofSel (keyNumber k) = some k := by
  cases k with
  | ramped k => cases k <;> rfl
  | rate | negativeFeedback | stereoPhaseOffset => rfl

theorem keyNumber_lt (k : ParamKey) : (keyNumber k).toNat < 8 := by
  cases k with
  | ramped k => cases k <;> decide
  | rate | negativeFeedback | stereoPhaseOffset => decide

theorem keyNumber_mem_rampKeys (k : RampKey) : (keyNumber (.ramped k), k) ∈ rampKeys := by cases k <;> decide

theorem paramKey_ofSel_eq_none {key : Sel} (h : 8 ≤ key.toNat) : ParamKey.ofSel key = none := by
  rw [Option.eq_none_iff_forall_not_mem]
  intro k hk
  rw [eq_keyNumber_of_ofSel hk] at h
  exact absurd (keyNumber_lt k) (Nat.not_lt.mpr h)

theorem rampKey_ofSel_eq_none {key : Sel} (h : ∀ k, (key, k) ∉ rampKeys) : RampKey.ofSel key = none := by
  rw [Option.eq_none_iff_forall_not_mem]
  intro k hk
  obtain rfl := eq_keyNumber_of_rampKey hk
  exact h k (keyNumber_mem_rampKeys k)

theorem waveform_ofSel_eq_none {k : Sel} (h : 3 ≤ k.toNat) : Waveform.ofSel k = none := by
  unfold Waveform.ofSel
  split
  case h_4 => rfl
  all_goals omega

/-- Settles O14: the selector is looked up first, and no key or waveform has these numbers. -/
theorem unknownSelectorIsBadSel : Obligations.UnknownSelectorIsBadSel := by
  intro s i k hk
  have hreject : rejected .badSel i.mnemonic s = .next { s with
      sticky := s.sticky ||| 0x02, output := s.output ++ [Spec.ack i 2] } := rejected_eq .badSel i s
  rcases hk with ⟨hkey, hi⟩ | ⟨hkey, hi⟩ | ⟨hcode, hi⟩
  · have hnone := paramKey_ofSel_eq_none hkey
    rcases hi with ⟨v, dur, rfl⟩ | rfl
    · simp only [exec, execParamSet, hnone]; exact hreject
    · simp only [exec, execParamGet, hnone]; exact hreject
  · have hnone := rampKey_ofSel_eq_none hkey
    rcases hi with ⟨t, d, rfl⟩ | rfl | rfl
    · simp only [exec, execRpSet, hnone]; exact hreject
    · simp only [exec, execRpFrameValue, hnone]; exact hreject
    · simp only [exec, execRpGet, hnone]; exact hreject
  · obtain ⟨sr, nch, mf, mdms, rfl⟩ := hi
    simp only [exec, execConfigure, waveform_ofSel_eq_none hcode]; exact hreject

/-- Settles O15: the length check of execFrame is against R80's count, before any other check. -/
theorem frameOfWrongLengthIsRefused : Obligations.FrameOfWrongLengthIsRefused := fun s xs hlen =>
  if_pos (c := xs.length ≠ s.frameOperands) hlen

end Sys2Proof.Proofs
end

section
/-! # PARAM_SET of a ramped key -/

namespace Sys2Proof.Proofs

open Sys2Proof.Machine Sys2Proof.Spec

theorem exec_paramSet_ramped {key : Sel} {k : RampKey} (hkey : (key, k) ∈ rampKeys) (v : Word) (dur : Option Word)
    (s : State) :
    exec (.paramSet key v dur) s
      = .next ((s.rpSet k (toInternal s.nan k v) (s.duration dur)).accept 0x10 []) := by
  obtain rfl := eq_keyNumber_of_mem_rampKeys hkey
  simp only [exec, execParamSet, ofSel_keyNumber]
  rfl

/-- Replacing a ramp touches the five ramps alone. -/
theorem setRamp_ramps_only (s : State) (k : RampKey) (r : Ramp) :
    s.setRamp k r = { s with
      depth := (s.setRamp k r).depth, delay := (s.setRamp k r).delay, feedback := (s.setRamp k r).feedback
      dryMix := (s.setRamp k r).dryMix, wetMix := (s.setRamp k r).wetMix } := by
  cases k <;> rfl

@[simp] theorem ramp_accept (s : State) (opc : BitVec 8) (rs : List Word) (k : RampKey) :
    (s.accept opc rs).ramp k = s.ramp k := by
  cases k <;> rfl

theorem toInternal_of_mem_rampKeys {key : Sel} {k : RampKey} (hkey : (key, k) ∈ rampKeys) (nan v : Word) :
    toInternal nan k v = if key = 2 then v else fdiv nan v f100 := by
  obtain rfl := eq_keyNumber_of_mem_rampKeys hkey
  cases k <;> rfl

theorem ramp_set_tgt (nan : Word) (r : Ramp) (t d : Word) : (r.set nan t d).tgt = t := by
  unfold Ramp.set
  split <;> rfl

theorem ramp_set_zero (nan : Word) (r : Ramp) (t : Word) :
    r.set nan t 0 = { cur := t, tgt := t, step := f0, rem := 0 } := rfl

theorem ramp_set_armed (nan : Word) (r : Ramp) (t : Word) {d : Word} (hd : d ≠ 0) :
    r.set nan t d = { cur := r.cur, tgt := t, step := fdiv nan (fsub nan t r.cur) (ofUnsigned d.toNat), rem := d } :=
  if_neg hd

/-- Settles O26: PARAM_SET of a ramped key is RPSet at the internal value. -/
theorem paramSetStartsRamp : Obligations.ParamSetStartsRamp := by
  intro s key k v dur hkey
  have hramp : ((s.rpSet k (toInternal s.nan k v) (s.duration dur)).accept 0x10 []).ramp k
      = (s.ramp k).set s.nan (toInternal s.nan k v) (s.duration dur) := by
    rw [ramp_accept, State.rpSet, State.ramp_setRamp_same]
  refine ⟨_, exec_paramSet_ramped hkey v dur s, ?_, fun other hother => ?_, ?_, fun hzero => ?_, fun d hd hne => ?_⟩
  · rw [State.rpSet]
    conv_lhs => rw [setRamp_ramps_only]
    rfl
  · rw [ramp_accept, State.rpSet, State.ramp_setRamp_other _ _ _ _ hother]
  · rw [hramp, ramp_set_tgt, toInternal_of_mem_rampKeys hkey]
    rfl
  · have hdur : s.duration dur = 0 := by cases dur <;> exact hzero
    rw [hramp, hdur, ramp_set_zero]
    exact ⟨rfl, rfl, rfl⟩
  · have hdur : s.duration dur = d := by cases dur <;> exact hd
    rw [hramp, hdur, ramp_set_armed _ _ _ hne]
    exact ⟨rfl, rfl, rfl⟩

end Sys2Proof.Proofs
end

section
/-! # The delay line's commands: DL_WRITE, DL_READAT and DL_READ (R110, R111, R113) -/

namespace Sys2Proof.Proofs

open Sys2Proof.Machine

/-! ## Indices into a legal line -/

theorem cap_eq_two_pow {p : Params} {l : DelayLine} (h : l.ok p) : l.cap.toNat = 2 ^ l.cap.toNat.log2 := by
  obtain ⟨hpow, -⟩ := h
  exact hpow

theorem cursor_lt {p : Params} {l : DelayLine} (h : l.ok p) : l.w.toNat < l.cap.toNat := by
  obtain ⟨-, -, hcursor, -⟩ := h
  exact hcursor

theorem cap_le {p : Params} {l : DelayLine} (h : l.ok p) : l.cap.toNat ≤ 2 ^ 24 := by
  obtain ⟨-, hmax, -⟩ := h
  have := p.capMaxLogPred.isLt
  exact hmax.trans (Nat.pow_le_pow_right (by norm_num) (by omega))

theorem cap_pos {p : Params} {l : DelayLine} (h : l.ok p) : 0 < l.cap.toNat := Nat.zero_lt_of_lt (cursor_lt h)

theorem toNat_pred_cap {p : Params} {l : DelayLine} (h : l.ok p) : (l.cap - 1).toNat = l.cap.toNat - 1 := by
  have := cap_pos h
  bv_omega

/-- R111: the mask is a reduction modulo CAP, because CAP is a power of two. -/
theorem index_eq_mod {p : Params} {l : DelayLine} (h : l.ok p) (i : Word) : l.index i = i.toNat % l.cap.toNat := by
  rw [DelayLine.index, BitVec.toNat_and, toNat_pred_cap h, cap_eq_two_pow h, Nat.and_two_pow_sub_one_eq_mod]

/-- CAP divides 2^32, so a word's wrap is lost in the reduction modulo CAP. -/
theorem cap_dvd {p : Params} {l : DelayLine} (h : l.ok p) : l.cap.toNat ∣ 2 ^ 32 := by
  rw [cap_eq_two_pow h]
  refine pow_dvd_pow 2 ?_
  have hlt : l.cap.toNat < 2 ^ 32 := l.cap.isLt
  exact ((Nat.log2_lt (cap_pos h).ne').mpr hlt).le

theorem index_behind_cursor {p : Params} {l : DelayLine} (h : l.ok p) (i : Word) :
    l.index (l.w - 1 - i) = (l.w.toNat + 2 ^ 32 - 1 - i.toNat) % l.cap.toNat := by
  have hword : (l.w - 1 - i).toNat = (l.w.toNat + 2 ^ 32 - 1 - i.toNat) % 2 ^ 32 := by bv_omega
  rw [index_eq_mod h, hword, Nat.mod_mod_of_dvd _ (cap_dvd h)]

theorem readAt_eq_sample {p : Params} {l : DelayLine} (h : l.ok p) {d : Nat} (hd : d < l.cap.toNat) :
    l.readAt (BitVec.ofNat 32 d) = l.sample ((l.w.toNat + l.cap.toNat - 1 - d) % l.cap.toNat) := by
  have hcap := l.cap.isLt
  obtain ⟨r, hr⟩ : ∃ r, 2 ^ 32 = l.cap.toNat + l.cap.toNat * r := by
    obtain ⟨q, hq⟩ := cap_dvd h
    cases q with
    | zero => omega
    | succ r => exact ⟨r, by rw [hq]; ring⟩
  have hwraps : l.w.toNat + 2 ^ 32 - 1 - d = l.w.toNat + l.cap.toNat - 1 - d + l.cap.toNat * r := by omega
  rw [DelayLine.readAt, index_behind_cursor h, BitVec.toNat_ofNat, Nat.mod_eq_of_lt (hd.trans hcap), hwraps,
    Nat.add_mul_mod_self_left]

/-! ## DL_WRITE -/

theorem toNat_write_w {p : Params} {l : DelayLine} (h : l.ok p) (x : Word) :
    (l.write x).w.toNat = (l.w.toNat + 1) % l.cap.toNat := by
  have hcursor := cursor_lt h
  have hcap := cap_le h
  have hnext : (l.w + 1).toNat = l.w.toNat + 1 := by bv_omega
  rw [← hnext]
  exact index_eq_mod h (l.w + 1)

theorem exec_dlWrite {s : State} {c : Sel} (hr : s.life = .ready) (hc : c.toNat < s.cfg.nch.toNat) (x : Word) :
    exec (.dlWrite c x) s = .next ((s.dlWrite c.toNat x).accept 0x20 []) := by
  simp only [exec, execDlWrite, needReady_ready _ _ _ hr, needChannel_below _ _ _ _ hc]
  rfl

/-- Settles O33: DLWrite replaces the channel's line alone, and of that line the sample at the cursor and the cursor. -/
theorem dlWriteStoresAtCursor : Obligations.DlWriteStoresAtCursor := by
  intro s c x hr hc
  refine ⟨_, exec_dlWrite hr hc x, rfl, ?_⟩
  have hline (e : Nat) : ((s.dlWrite c.toNat x).accept 0x20 []).line e
      = (s.setLine c.toNat ((s.line c.toNat).write x)).line e := rfl
  simp only [hline, State.line_setLine_same]
  exact ⟨DelayLine.sample_write_same _ x, DelayLine.sample_write_other _ x, rfl, rfl, fun hok => toNat_write_w hok x,
    fun e he => State.line_setLine_other s _ e _ he⟩

/-! ## DL_READAT -/

theorem exec_dlReadAt {s : State} {c : Sel} (hr : s.life = .ready) (hc : c.toNat < s.cfg.nch.toNat) (i : Word) :
    exec (.dlReadAt c i) s = .next (s.accept 0x22 [(s.line c.toNat).readAt i]) := by
  simp only [exec, execDlReadAt, needReady_ready _ _ _ hr, needChannel_below _ _ _ _ hc]
  rfl

/-- Settles O35: the mask is the model's own index, and on a legal line it is a reduction modulo CAP. -/
theorem dlReadAtCountsFromNewest : Obligations.DlReadAtCountsFromNewest := by
  intro s c i hr hc
  refine ⟨exec_dlReadAt hr hc i, fun hok => ?_⟩
  rw [exec_dlReadAt hr hc i, DelayLine.readAt, index_behind_cursor hok]
  rfl

/-! ## DL_READ -/

/-- The end of the legal range is exact, because CAP is at most 2^24 (R113). -/
theorem hi_exact {p : Params} {l : DelayLine} (h : l.ok p) :
    isNaN l.hi = false ∧ val l.hi = ((l.cap.toNat : Int) - 1) * 2 ^ 149 := by
  have hpos := cap_pos h
  have hcap := cap_le h
  have hpred : ((l.cap.toNat - 1 : Nat) : Int) = (l.cap.toNat : Int) - 1 := by omega
  obtain ⟨hfin, hval⟩ := ofUnsigned_exact (n := l.cap.toNat - 1) (by omega)
  rw [DelayLine.hi, toNat_pred_cap h, hval, hpred]
  exact ⟨isNaN_of_isFinite hfin, rfl⟩

theorem clampDelay_legal {p : Params} {l : DelayLine} (h : l.ok p) {d : Word} (hnan : isNaN d = false)
    (h0 : 0 ≤ val d) (h1 : val d < ((l.cap.toNat : Int) - 1) * 2 ^ 149) : l.clampDelay d = (d, false) := by
  obtain ⟨hnanHi, hvalHi⟩ := hi_exact h
  have hneg : flt d f0 = false := by
    rw [Bool.eq_false_iff, ne_eq, flt_iff hnan (by decide), val_f0]
    omega
  have hhigh : fle l.hi d = false := by
    rw [Bool.eq_false_iff, ne_eq, fle_iff hnanHi hnan, hvalHi]
    omega
  simp [DelayLine.clampDelay, hnan, hneg, hhigh]

theorem clampDelay_low (l : DelayLine) {d : Word} (hlow : isNaN d = true ∨ val d < 0) :
    l.clampDelay d = (f0, true) := by
  have hclamps : (isNaN d || flt d f0) = true := by
    cases hnan : isNaN d with
    | true => rfl
    | false => rw [Bool.false_or, flt_iff hnan (by decide), val_f0]; exact hlow.resolve_left (by simp [hnan])
  simp [DelayLine.clampDelay, hclamps]

theorem clampDelay_high {p : Params} {l : DelayLine} (h : l.ok p) {d : Word} (hnan : isNaN d = false)
    (h0 : 0 ≤ val d) (h1 : ((l.cap.toNat : Int) - 1) * 2 ^ 149 ≤ val d) :
    l.clampDelay d = (if l.cap = 1 then f0 else nextDown (ofUnsigned (l.cap.toNat - 1)), true) := by
  obtain ⟨hnanHi, hvalHi⟩ := hi_exact h
  have hpos := cap_pos h
  have hneg : flt d f0 = false := by
    rw [Bool.eq_false_iff, ne_eq, flt_iff hnan (by decide), val_f0]
    omega
  have hhigh : fle l.hi d = true := by rwa [fle_iff hnanHi hnan, hvalHi]
  have hsome : flt f0 l.hi = true ↔ l.cap ≠ 1 := by
    have hone : l.cap = 1 ↔ l.cap.toNat = 1 := BitVec.toNat_inj.symm
    rw [flt_iff (by decide) hnanHi, val_f0, hvalHi, ne_eq, hone]
    omega
  have hlast : l.hi = ofUnsigned (l.cap.toNat - 1) := by rw [DelayLine.hi, toNat_pred_cap h]
  by_cases hcap : l.cap = 1 <;> simp [DelayLine.clampDelay, hnan, hneg, hhigh, hsome, hcap, ← hlast]

/-- DL_READ, from the clamp of its delay. -/
theorem exec_dlRead {s : State} {c : Sel} {d e : Word} {clamped : Bool} (hr : s.life = .ready)
    (hc : c.toNat < s.cfg.nch.toNat) (hclamp : (s.line c.toNat).clampDelay d = (e, clamped)) :
    exec (.dlRead c d) s = .next ((if clamped then s.flag .dlyClamp else s).accept 0x21
      [Spec.interpolated s.nan (s.line c.toNat) e]) := by
  simp only [exec, execDlRead, needReady_ready _ _ _ hr, needChannel_below _ _ _ _ hc, State.dlRead, hclamp]
  rfl

/-- Settles O34: the three ranges of a delay are the three branches of the clamp. -/
theorem dlReadInterpolatesOrClamps : Obligations.DlReadInterpolatesOrClamps := by
  intro s c d hr hc hok
  refine ⟨?_, fun hlow => ?_, ?_⟩
  · rintro ⟨hnan, h0, h1⟩
    exact exec_dlRead hr hc (clampDelay_legal hok hnan h0 h1)
  · exact exec_dlRead hr hc (clampDelay_low _ hlow)
  · rintro ⟨hnan, h0, h1⟩
    exact exec_dlRead hr hc (clampDelay_high hok hnan h0 h1)

end Sys2Proof.Proofs
end

section
/-! # A sequence of writes, read back by index (R110, R111) -/

namespace Sys2Proof.Proofs

open Sys2Proof.Machine

theorem readAt_zero_write {p : Params} {l : DelayLine} (h : l.ok p) (x : Word) : (l.write x).readAt 0 = x := by
  have hcursor := cursor_lt h
  have hplace : ((l.w.toNat + 1) % l.cap.toNat + l.cap.toNat - 1 - 0) % l.cap.toNat = l.w.toNat := by
    rcases Nat.lt_or_eq_of_le (show l.w.toNat + 1 ≤ l.cap.toNat from hcursor) with hlt | hwrap
    · rw [Nat.mod_eq_of_lt hlt, show l.w.toNat + 1 + l.cap.toNat - 1 - 0 = l.w.toNat + l.cap.toNat by omega,
        Nat.add_mod_right, Nat.mod_eq_of_lt hcursor]
    · rw [hwrap, Nat.mod_self, Nat.mod_eq_of_lt (by omega)]
      omega
  rw [show (0 : Word) = BitVec.ofNat 32 0 from rfl, readAt_eq_sample (write_ok h x) (cap_pos (write_ok h x)), toNat_write_w h,
    DelayLine.write_cap, hplace, DelayLine.sample_write_same]

/-- A write moves every word one index on, but for the oldest, which it overwrites. -/
theorem readAt_succ_write {p : Params} {l : DelayLine} (h : l.ok p) (x : Word) {d : Nat} (hd : d + 1 < l.cap.toNat) :
    (l.write x).readAt (BitVec.ofNat 32 (d + 1)) = l.readAt (BitVec.ofNat 32 d) := by
  have hcursor := cursor_lt h
  have hplace : ((l.w.toNat + 1) % l.cap.toNat + l.cap.toNat - 1 - (d + 1)) % l.cap.toNat
      = (l.w.toNat + l.cap.toNat - 1 - d) % l.cap.toNat := by
    rcases Nat.lt_or_eq_of_le (show l.w.toNat + 1 ≤ l.cap.toNat from hcursor) with hlt | hwrap
    · rw [Nat.mod_eq_of_lt hlt]
      congr 1
      omega
    · rw [hwrap, Nat.mod_self, ← Nat.add_mod_right]
      congr 1
      omega
  have hother : (l.w.toNat + l.cap.toNat - 1 - d) % l.cap.toNat ≠ l.w.toNat := by
    rcases Nat.lt_or_ge d l.w.toNat with hlt | hge
    · rw [show l.w.toNat + l.cap.toNat - 1 - d = l.w.toNat - 1 - d + l.cap.toNat by omega, Nat.add_mod_right,
        Nat.mod_eq_of_lt (by omega)]
      omega
    · rw [Nat.mod_eq_of_lt (by omega)]
      omega
  rw [readAt_eq_sample (write_ok h x) hd, toNat_write_w h, DelayLine.write_cap, hplace,
    DelayLine.sample_write_other _ _ _ hother, readAt_eq_sample h (Nat.lt_of_succ_lt hd)]

theorem writes_ok {p : Params} {l : DelayLine} (h : l.ok p) (xs : List Word) : (xs.foldl DelayLine.write l).ok p := by
  induction xs generalizing l with
  | nil => exact h
  | cons x xs ih => exact ih (write_ok h x)

theorem writes_cap (l : DelayLine) (xs : List Word) : (xs.foldl DelayLine.write l).cap = l.cap := by
  induction xs generalizing l with
  | nil => rfl
  | cons x xs ih => exact ih (l.write x)

theorem readAt_writes {p : Params} {l : DelayLine} (h : l.ok p) {xs : List Word} {d : Nat} {x : Word}
    (hd : d < l.cap.toNat) (hx : xs.reverse[d]? = some x) :
    (xs.foldl DelayLine.write l).readAt (BitVec.ofNat 32 d) = x := by
  induction xs using List.reverseRecOn generalizing d with
  | nil => simp at hx
  | append_singleton xs y ih =>
    rw [List.reverse_append, List.reverse_singleton, List.singleton_append] at hx
    rw [List.foldl_append, List.foldl_cons, List.foldl_nil]
    have hok := writes_ok h xs
    cases d with
    | zero =>
      obtain rfl : y = x := by simpa using hx
      exact readAt_zero_write hok y
    | succ d =>
      rw [readAt_succ_write hok y (by rwa [writes_cap])]
      exact ih (Nat.lt_of_succ_lt hd) (by simpa using hx)

/-- Settles O37, by induction on the writes from the last one back. -/
theorem readAtReturnsWrittenWord : Obligations.ReadAtReturnsWrittenWord :=
  fun _ _ _ _ _ hok hd hx => readAt_writes hok hd hx

end Sys2Proof.Proofs
end

section
/-! # Rounding keeps the order: products between finite values, and exact results -/

namespace Sys2Proof.Proofs

open Sys2Proof.Machine

/-- A number x as near to n as y is not beyond y, seen from n. -/
theorem same_side_of_nearest {n x y : Nat} (h : |(n : Int) - x| ≤ |(n : Int) - y|) :
    (n ≤ y → x ≤ y) ∧ (y ≤ n → y ≤ x) := by
  simp only [abs_eq_max_neg] at h
  omega

theorem roundBits_same_side (n d b : Nat) (hd : 0 < d) :
    (n ≤ bitsMag b * d → roundBits n d ≤ b) ∧ (bitsMag b * d ≤ n → b ≤ roundBits n d) := by
  have hnear := (isNearestBits_roundBits n d hd b).1
  rw [← Nat.cast_mul, ← Nat.cast_mul] at hnear
  obtain ⟨hle, hge⟩ := same_side_of_nearest hnear
  exact ⟨fun h => bitsMag_strictMono.le_iff_le.mp (Nat.le_of_mul_le_mul_right (hle h) hd),
    fun h => bitsMag_strictMono.le_iff_le.mp (Nat.le_of_mul_le_mul_right (hge h) hd)⟩

theorem roundMag_le {n d b : Nat} (hd : 0 < d) (h : n ≤ bitsMag b * d) : roundMag n d ≤ b := by
  rw [roundMag_eq_min]
  exact (Nat.min_le_left _ _).trans ((roundBits_same_side n d b hd).1 h)

theorem le_roundMag {n d b : Nat} (hd : 0 < d) (hb : b ≤ infBits) (h : bitsMag b * d ≤ n) : b ≤ roundMag n d := by
  rw [roundMag_eq_min]
  exact Nat.le_min.mpr ⟨(roundBits_same_side n d b hd).2 h, hb⟩

theorem val_pack_roundMag (neg : Bool) (n d : Nat) :
    val (pack neg (roundMag n d)) = if neg then -(bitsMag (roundMag n d) : Int) else bitsMag (roundMag n d) := by
  rw [val, mag_eq_bitsMag, fsign_pack neg _ (roundMag_lt n d), magBits_pack neg _ (roundMag_lt n d)]

theorem isFinite_pack_roundMag (neg : Bool) {n d : Nat} (h : roundMag n d < infBits) :
    isFinite (pack neg (roundMag n d)) = true := by
  rwa [isFinite_iff, magBits_pack neg _ (roundMag_lt n d)]

theorem val_eq_bitsMag_of_nonneg {w : Word} (h : 0 ≤ val w) : val w = bitsMag (magBits w) := by
  have := val_eq_or_neg w
  rw [mag_eq_bitsMag] at this
  omega

theorem le_bitsMag_roundMag {n d : Nat} {w : Word} (hd : 0 < d) (hw : isFinite w = true) (h : val w * d ≤ n) :
    val w ≤ bitsMag (roundMag n d) := by
  rcases le_total (val w) 0 with hneg | hpos
  · exact hneg.trans (Int.natCast_nonneg _)
  · rw [val_eq_bitsMag_of_nonneg hpos] at h ⊢
    have hfin := (isFinite_iff w).mp hw
    exact_mod_cast bitsMag_strictMono.monotone (le_roundMag hd hfin.le (by exact_mod_cast h))

/-- A magnitude between two finite values is between them after rounding too. -/
theorem roundMag_between {n d : Nat} {lo hi : Word} (hd : 0 < d) (hlo : isFinite lo = true) (hhi : isFinite hi = true)
    (h1 : val lo * d ≤ n) (h2 : (n : Int) ≤ val hi * d) :
    roundMag n d < infBits ∧ val lo ≤ bitsMag (roundMag n d) ∧ (bitsMag (roundMag n d) : Int) ≤ val hi := by
  have hhi0 : 0 ≤ val hi := nonneg_of_mul_nonneg_left ((Int.natCast_nonneg n).trans h2) (by exact_mod_cast hd)
  rw [val_eq_bitsMag_of_nonneg hhi0] at h2 ⊢
  have hround : roundMag n d ≤ magBits hi := roundMag_le hd (by exact_mod_cast h2)
  exact ⟨hround.trans_lt ((isFinite_iff hi).mp hhi), le_bitsMag_roundMag hd hlo h1,
    by exact_mod_cast bitsMag_strictMono.monotone hround⟩

theorem pack_roundMag_between {neg : Bool} {n d : Nat} {lo hi : Word} (hd : 0 < d) (hlo : isFinite lo = true)
    (hhi : isFinite hi = true) (h1 : val lo * d ≤ if neg then -(n : Int) else n)
    (h2 : (if neg then -(n : Int) else n) ≤ val hi * d) :
    isFinite (pack neg (roundMag n d)) = true
    ∧ val lo ≤ val (pack neg (roundMag n d)) ∧ val (pack neg (roundMag n d)) ≤ val hi := by
  rw [val_pack_roundMag]
  cases neg with
  | false =>
    obtain ⟨hfin, hle, hge⟩ := roundMag_between hd hlo hhi h1 h2
    exact ⟨isFinite_pack_roundMag false hfin, hle, hge⟩
  | true =>
    simp only [if_true] at h1 h2 ⊢
    obtain ⟨hfin, hle, hge⟩ := roundMag_between (n := n) (lo := fneg hi) (hi := fneg lo) hd
      (by rwa [isFinite_fneg]) (by rwa [isFinite_fneg]) (by rw [val_fneg, neg_mul]; omega)
      (by rw [val_fneg, neg_mul]; omega)
    rw [val_fneg] at hle hge
    exact ⟨isFinite_pack_roundMag true hfin, by omega, by omega⟩

/-- The exact product by its sign and magnitude. -/
theorem val_mul_val (a b : Word) :
    val a * val b = if fsign a != fsign b then -((mag a * mag b : Nat) : Int) else (mag a * mag b : Nat) := by
  unfold val
  cases fsign a <;> cases fsign b <;> simp

theorem fmul_between {nan a b lo hi : Word} (ha : isFinite a = true) (hb : isFinite b = true)
    (hlo : isFinite lo = true) (hhi : isFinite hi = true)
    (h1 : val lo * 2 ^ 149 ≤ val a * val b) (h2 : val a * val b ≤ val hi * 2 ^ 149) :
    isFinite (fmul nan a b) = true ∧ val lo ≤ val (fmul nan a b) ∧ val (fmul nan a b) ≤ val hi := by
  rw [val_mul_val] at h1 h2
  rw [fmul_of_isFinite nan ha hb]
  exact pack_roundMag_between (Nat.two_pow_pos 149) hlo hhi (by exact_mod_cast h1) (by exact_mod_cast h2)

theorem le_fmul {nan a b w : Word} (ha : isFinite a = true) (hb : isFinite b = true) (hw : isFinite w = true)
    (hpos : 0 < val a * val b) (h : val w * 2 ^ 149 ≤ val a * val b) : val w ≤ val (fmul nan a b) := by
  rw [val_mul_val] at hpos h
  rw [fmul_of_isFinite nan ha hb, val_pack_roundMag]
  split at h
  next hneg => rw [if_pos hneg] at hpos; omega
  next hneg =>
    rw [if_neg hneg]
    exact le_bitsMag_roundMag (Nat.two_pow_pos 149) hw (by exact_mod_cast h)

/-! ## A result that is some word's value is not rounded -/

theorem fadd_exact {nan a b w : Word} (ha : isFinite a = true) (hb : isFinite b = true) (hw : isFinite w = true)
    (h : val a + val b = val w) : isFinite (fadd nan a b) = true ∧ val (fadd nan a b) = val w := by
  obtain ⟨hfin, hge, hle⟩ := fadd_between (nan := nan) ha hb hw hw h.ge h.le
  exact ⟨hfin, le_antisymm hle hge⟩

theorem fsub_exact {nan a b w : Word} (ha : isFinite a = true) (hb : isFinite b = true) (hw : isFinite w = true)
    (h : val a - val b = val w) : isFinite (fsub nan a b) = true ∧ val (fsub nan a b) = val w := by
  obtain ⟨hfin, hge, hle⟩ := fsub_between (nan := nan) ha hb hw hw h.ge h.le
  exact ⟨hfin, le_antisymm hle hge⟩

theorem fmul_exact {nan a b w : Word} (ha : isFinite a = true) (hb : isFinite b = true) (hw : isFinite w = true)
    (h : val a * val b = val w * 2 ^ 149) : isFinite (fmul nan a b) = true ∧ val (fmul nan a b) = val w := by
  obtain ⟨hfin, hge, hle⟩ := fmul_between (nan := nan) ha hb hw hw h.ge h.le
  exact ⟨hfin, le_antisymm hle hge⟩

end Sys2Proof.Proofs
end

section
/-! # A read at an integer delay (R115.1) -/

namespace Sys2Proof.Proofs

open Sys2Proof.Machine

theorem writes_finite {l : DelayLine} {xs : List Word} (hl : ∀ j, isFinite (l.sample j) = true)
    (hxs : ∀ y ∈ xs, isFinite y = true) (j : Nat) : isFinite ((xs.foldl DelayLine.write l).sample j) = true := by
  induction xs generalizing l with
  | nil => exact hl j
  | cons x xs ih =>
    obtain ⟨hx, hrest⟩ := List.forall_mem_cons.mp hxs
    refine ih (fun k => ?_) hrest
    by_cases hk : k = l.w.toNat
    · rwa [hk, DelayLine.sample_write_same]
    · rw [DelayLine.sample_write_other l x k hk]
      exact hl k

/-- At an integer delay the weights of R113 are 0 and 1, so a finite older sample adds a zero. -/
theorem val_interpolate_integer (nan : Word) (l : DelayLine) {d : Nat} (hd : d ≤ 2 ^ 24)
    (hnewer : isFinite (l.readAt (BitVec.ofNat 32 d)) = true)
    (holder : isFinite (l.readAt (BitVec.ofNat 32 (d + 1))) = true) :
    isFinite (l.interpolate nan (ofUnsigned d)) = true
    ∧ val (l.interpolate nan (ofUnsigned d)) = val (l.readAt (BitVec.ofNat 32 d)) := by
  have hf0 : isFinite f0 = true := by decide
  have hf1 : isFinite f1 = true := by decide
  obtain ⟨hfin, hval⟩ := ofUnsigned_exact hd
  have hfloor : (ffloor (ofUnsigned d)).toNat = d := by
    rw [ffloor, hval, Int.mul_ediv_cancel _ (by norm_num), Int.toNat_natCast]
  simp only [DelayLine.interpolate, hfloor]
  obtain ⟨hfrac, hvfrac⟩ := fsub_exact (nan := nan) hfin hfin hf0 (by rw [sub_self, val_f0])
  obtain ⟨hrest, hvrest⟩ := fsub_exact (nan := nan) hf1 hfrac hf1 (by rw [hvfrac, val_f0, sub_zero])
  obtain ⟨hzero, hvzero⟩ := fmul_exact (nan := nan) hfrac holder hf0 (by rw [hvfrac, val_f0, zero_mul, zero_mul])
  obtain ⟨hone, hvone⟩ := fmul_exact (nan := nan) hrest hnewer hnewer (by rw [hvrest, val_f1, mul_comm])
  exact fadd_exact hzero hone hnewer (by rw [hvzero, hvone, val_f0, zero_add])

/-- Settles O38: F(d) is exact and in the legal range, and the newer sample is the word written d writes before. -/
theorem integerDelayReadsEarlierSample : Obligations.IntegerDelayReadsEarlierSample := by
  intro p l xs d x hok hd hl hxs hx
  have hlast := writes_ok hok xs
  have hcap := cap_le hok
  obtain ⟨hfin, hval⟩ := ofUnsigned_exact (n := d) (by omega)
  have hread := readAt_writes hok (Nat.lt_of_succ_lt hd) hx
  obtain ⟨hfinRead, hvalRead⟩ := val_interpolate_integer (nanWord p) (xs.foldl DelayLine.write l) (d := d) (by omega)
    (writes_finite hl hxs _) (writes_finite hl hxs _)
  have hfinx : isFinite x = true := hread ▸ writes_finite hl hxs _
  refine ⟨clampDelay_legal hlast (isNaN_of_isFinite hfin) ?_ ?_, ?_⟩
  · rw [hval]; omega
  · rw [hval, writes_cap]; omega
  · rw [feq_iff (isNaN_of_isFinite hfinRead) (isNaN_of_isFinite hfinx), hvalRead, hread]

end Sys2Proof.Proofs
end

section
/-! # No position of a frame is clamped (R244, R245)

The exact product MAXDMS × SPM is less than a quarter above the integer ceil(x), or x would be above it too. The two
roundings of R244's sum make a position in milliseconds at most (1 + 2^−24)² times MAXDMS, and with ceil(x) at most 2^21
that is less than half a sample more. -/

namespace Sys2Proof.Proofs

open Sys2Proof.Machine

/-! ## The relative error of a rounded sum -/

/-- A sum is a whole number of units, so its rounding is exact or has a full significand: it is off by at most one part
in 2^24. -/
theorem roundBits_le_relative (n : Nat) : 2 ^ 24 * bitsMag (roundBits n 1) ≤ (2 ^ 24 + 1) * n := by
  obtain ⟨-, hspacing⟩ := spacingExp_spec n 1 Nat.one_pos
  obtain ⟨herr, -⟩ := roundBits_error n 1 Nat.one_pos
  have hexact := bitsMag_roundBits n 1 Nat.one_pos
  rcases hspacing with hunit | hnormal
  · have hround : roundDiv (n * 1) 1 = n := roundDiv_mul n 1 Nat.one_pos
    simp only [hunit, pow_zero, Nat.mul_one] at hexact hround
    rw [hexact, hround]
    omega
  · omega

theorem roundInt_le_relative {v s : Int} (hs : 0 ≤ s) (h : v ≤ s) :
    2 ^ 24 * val (roundInt v) ≤ (2 ^ 24 + 1) * s := by
  have hrel := roundBits_le_relative v.natAbs
  have hle : bitsMag (roundMag v.natAbs 1) ≤ bitsMag (roundBits v.natAbs 1) :=
    bitsMag_strictMono.monotone (by rw [roundMag_eq_min]; exact Nat.min_le_left _ _)
  rw [roundInt, val_pack_roundMag]
  by_cases hneg : v < 0
  · simp only [hneg, decide_true, if_true]
    omega
  · simp only [hneg, decide_false, Bool.false_eq_true, if_false]
    omega

theorem fadd_le_relative {nan a b : Word} {s : Int} (ha : isFinite a = true) (hb : isFinite b = true) (hs : 0 ≤ s)
    (h : val a + val b ≤ s) : 2 ^ 24 * val (fadd nan a b) ≤ (2 ^ 24 + 1) * s := by
  rw [fadd_of_isFinite nan ha hb]
  split
  next =>
    obtain ⟨-, hval⟩ := val_pack_zero (fsign a && fsign b)
    rw [hval]
    omega
  next => exact roundInt_le_relative hs h

theorem fsub_le_relative {nan a b : Word} {s : Int} (ha : isFinite a = true) (hb : isFinite b = true) (hs : 0 ≤ s)
    (h : val a - val b ≤ s) : 2 ^ 24 * val (fsub nan a b) ≤ (2 ^ 24 + 1) * s := by
  rw [fsub_eq_fadd_fneg]
  exact fadd_le_relative ha (by rwa [isFinite_fneg]) hs (by rwa [val_fneg, ← sub_eq_add_neg])

/-! ## The position in milliseconds -/

/-- The greatest finite value. -/
def fMax : Word := 0x7F7FFFFF#32

theorem val_fMax : val fMax = (2 ^ 24 - 1) * 2 ^ 253 := by decide
theorem val_fHalf : val fHalf = 2 ^ 148 := by decide

/-- The word is a number from 0 to 1; a value is in units of 2^−149. -/
structure Fraction (w : Word) : Prop where
  finite : isFinite w = true
  nonneg : 0 ≤ val w
  le_one : val w ≤ 2 ^ 149

/-- m of R244. -/
theorem fraction_of_lfoOutput (nan : Word) {u : Word} (hu : isFinite u = true) (h1 : -2 ^ 149 ≤ val u)
    (h2 : val u ≤ 2 ^ 149) : Fraction (fmul nan (fadd nan u f1) fHalf) := by
  have hf0 : isFinite f0 = true := by decide
  have hf1 : isFinite f1 = true := by decide
  obtain ⟨hfin, hge, hle⟩ := fadd_between (nan := nan) (lo := f0) (hi := f2) hu hf1 hf0 (by decide)
    (by rw [val_f0, val_f1]; omega) (by rw [val_f1, val_f2]; omega)
  rw [val_f0] at hge
  rw [val_f2] at hle
  obtain ⟨hfin', hge', hle'⟩ := fmul_between (nan := nan) (b := fHalf) (lo := f0) (hi := f1) hfin (by decide) hf0 hf1
    (by rw [val_f0, val_fHalf]; omega) (by rw [val_f1, val_fHalf]; omega)
  exact ⟨hfin', by rwa [val_f0] at hge', by rwa [val_f1] at hle'⟩

/-- A fraction of a number is between it and 0. -/
theorem fmul_fraction {nan a m : Word} (ha : isFinite a = true) (hm : Fraction m) :
    isFinite (fmul nan a m) = true
    ∧ min (val a) 0 ≤ val (fmul nan a m) ∧ val (fmul nan a m) ≤ max (val a) 0 := by
  obtain ⟨hfin, h0, h1⟩ := hm
  have hf0 : isFinite f0 = true := by decide
  rcases le_total 0 (val a) with hpos | hneg
  · rw [min_eq_right hpos, max_eq_left hpos, ← val_f0]
    exact fmul_between ha hfin hf0 ha (by rw [val_f0, zero_mul]; exact mul_nonneg hpos h0)
      (mul_le_mul_of_nonneg_left h1 hpos)
  · rw [min_eq_left hneg, max_eq_right hneg, ← val_f0]
    exact fmul_between ha hfin ha hf0 (mul_le_mul_of_nonpos_left h1 hneg)
      (by rw [val_f0, zero_mul]; exact mul_nonpos_of_nonpos_of_nonneg hneg h0)

/-- The span of R242 takes a delay back to 0 at most, and on to MAXDMS but for its own rounding. -/
theorem sweepSpan_range (nan : Word) {depth mdms delay : Word} (hdepth : Fraction depth) (hmdms : isFinite mdms = true)
    (hdelay : isFinite delay = true) (h0 : 0 ≤ val delay) (h1 : val delay ≤ val mdms) :
    isFinite (sweepSpan nan depth mdms delay) = true ∧ -val delay ≤ val (sweepSpan nan depth mdms delay)
    ∧ 2 ^ 24 * val (sweepSpan nan depth mdms delay) ≤ (2 ^ 24 + 1) * (val mdms - val delay) := by
  obtain ⟨hfar, hgeFar, hleFar⟩ := fmul_fraction (nan := nan) hmdms hdepth
  rw [fmul_comm] at hfar hgeFar hleFar
  obtain ⟨hspan, hge, -⟩ := fsub_between (nan := nan) (lo := fneg delay) (hi := mdms) hfar hdelay
    (by rwa [isFinite_fneg]) hmdms (by rw [val_fneg]; omega) (by omega)
  rw [val_fneg] at hge
  exact ⟨hspan, hge, fsub_le_relative hfar hdelay (by omega) (by omega)⟩

/-- posMs of R244 is at least 0, and above MAXDMS by no more than its two roundings. -/
theorem positionMs_range (nan : Word) {delay span m : Word} {maxDms : Int} (hm : Fraction m)
    (hdelay : isFinite delay = true) (h0 : 0 ≤ val delay) (hmax : maxDms ≤ 2 ^ 23 * 2 ^ 253) (h1 : val delay ≤ maxDms)
    (hspan : isFinite span = true) (hge : -val delay ≤ val span)
    (hle : 2 ^ 24 * val span ≤ (2 ^ 24 + 1) * (maxDms - val delay)) :
    isFinite (fadd nan delay (fmul nan span m)) = true ∧ 0 ≤ val (fadd nan delay (fmul nan span m))
    ∧ 2 ^ 48 * val (fadd nan delay (fmul nan span m)) ≤ (2 ^ 24 + 1) ^ 2 * maxDms := by
  obtain ⟨hpart, hgePart, hlePart⟩ := fmul_fraction (nan := nan) hspan hm
  have hsum : 2 ^ 24 * (val delay + val (fmul nan span m)) ≤ (2 ^ 24 + 1) * maxDms := by omega
  obtain ⟨hfin, hpos, -⟩ := fadd_between (nan := nan) (lo := f0) (hi := fMax) hdelay hpart (by decide) (by decide)
    (by rw [val_f0]; omega) (by rw [val_fMax]; omega)
  have hrel := fadd_le_relative (nan := nan) hdelay hpart (by omega) le_rfl
  rw [val_f0] at hpos
  exact ⟨hfin, hpos, by omega⟩

/-! ## The position in samples -/

/-- Every quarter of a small integer is some word's value. -/
theorem exists_quarters {k : Nat} (hk : k ≤ 2 ^ 24) : ∃ w : Word, isFinite w = true ∧ val w = (k : Int) * 2 ^ 147 := by
  obtain ⟨b, hb⟩ := exists_bitsMag_eq k 147 hk
  have hfin : b < infBits := by
    rw [← bitsMag_strictMono.lt_iff_lt, hb, bitsMag_infBits]
    exact Nat.mul_lt_mul_of_le_of_lt hk (by norm_num) (by norm_num)
  have hlt : b < 2 ^ 31 := hfin.trans (by decide)
  refine ⟨pack false b, by rwa [isFinite_iff, magBits_pack false b hlt], ?_⟩
  rw [val, fsign_pack false b hlt, mag_eq_bitsMag, magBits_pack false b hlt, hb]
  push_cast
  rfl

theorem val_le_fceil (x : Word) : val x ≤ fceil x * 2 ^ 149 := by
  have := Int.ediv_mul_le (-val x) (b := 2 ^ 149) (by norm_num)
  rw [fceil, neg_mul]
  omega

/-- SPM of R272 is finite and not negative. -/
theorem samplesPerMs_range (nan : Word) {sr : Word} (h : sampleRateOk sr = true) :
    isFinite (samplesPerMs nan sr) = true ∧ 0 ≤ val (samplesPerMs nan sr) := by
  simp only [sampleRateOk, Bool.not_eq_true', Bool.or_eq_false_iff] at h
  obtain ⟨⟨hnan, hpos⟩, hinf⟩ := h
  rw [Bool.eq_false_iff, ne_eq, fle_iff hnan (by decide), val_f0, not_le] at hpos
  rw [Bool.eq_false_iff, ne_eq, feq_iff hnan (by decide)] at hinf
  have hvalInf : val fInf = bitsMag infBits := rfl
  have hval : val sr = bitsMag (magBits sr) := val_eq_bitsMag_of_nonneg hpos.le
  have hfin : isFinite sr = true := by
    refine (isFinite_iff sr).mpr (Nat.lt_of_le_of_ne ((isNaN_eq_false_iff sr).mp hnan) fun hbits => hinf ?_)
    rw [hval, hbits, hvalInf]
  have hmag : mag f1000 = 1000 * 2 ^ 149 := by decide
  have hsign : (fsign sr != fsign f1000) = false := by
    have hf1000 : fsign f1000 = false := by decide
    rw [hf1000, Bool.bne_false, Bool.eq_false_iff]
    intro hneg
    rw [val, if_pos hneg] at hpos
    omega
  rw [samplesPerMs, fdiv_of_isFinite nan hfin (by decide) (by rw [hmag]; norm_num), hsign]
  obtain ⟨hspm, hge, -⟩ := pack_roundMag_between (neg := false) (n := mag sr * 2 ^ 149) (d := mag f1000) (lo := f0)
    (hi := sr) (by rw [hmag]; norm_num) (by decide) hfin (by rw [val_f0, zero_mul]; exact Int.natCast_nonneg _)
    (by rw [hval, mag_eq_bitsMag, hmag]; push_cast; omega)
  exact ⟨hspm, by rwa [val_f0] at hge⟩

theorem f0_fle_of_maxDelayOk {mdms : Word} (h : maxDelayOk mdms = true) : fle f0 mdms = true := by
  simp only [maxDelayOk, Bool.not_eq_true', Bool.or_eq_false_iff] at h
  obtain ⟨⟨hnan, hneg⟩, -⟩ := h
  rw [Bool.eq_false_iff, ne_eq, flt_iff hnan (by decide), not_lt] at hneg
  rwa [fle_iff (by decide) hnan]

/-- What a comparison with two finite words says of a word's value. -/
theorem fle_between {lo w hi : Word} (hlo : isFinite lo = true) (hhi : isFinite hi = true) (h1 : fle lo w = true)
    (h2 : fle w hi = true) : isFinite w = true ∧ val lo ≤ val w ∧ val w ≤ val hi := by
  have hnan : isNaN w = false := by
    cases hw : isNaN w with
    | false => rfl
    | true => rw [(compare_of_isNaN (.inl hw)).2.1] at h2; cases h2
  rw [fle_iff (isNaN_of_isFinite hlo) hnan] at h1
  rw [fle_iff hnan (isNaN_of_isFinite hhi)] at h2
  exact ⟨isFinite_of_between hlo hhi hnan h1 h2, h1, h2⟩

/-- The exact product is less than a quarter above ceil of its rounding: past the quarter it would be rounded to a
quarter above or more. -/
theorem product_lt_quarter {nan a b : Word} (ha : isFinite a = true) (hb : isFinite b = true)
    (hceil : fceil (fmul nan a b) ≤ 2 ^ 21) :
    val a * val b < (4 * (fceil (fmul nan a b)).toNat + 1) * 2 ^ 147 * 2 ^ 149 := by
  obtain ⟨w, hw, hval⟩ := exists_quarters (k := 4 * (fceil (fmul nan a b)).toNat + 1) (by omega)
  by_contra! hge
  have hround := le_fmul (nan := nan) ha hb hw (by omega) (by rw [hval]; push_cast; exact hge)
  have hbelow := val_le_fceil (fmul nan a b)
  rw [hval] at hround
  omega

/-- With ceil(x) at most 2^21, two roundings' worth above MAXDMS is still less than a sample past ceil(x). -/
theorem positionSamples_range {nan mdms spm posMs : Word} (hmdms : isFinite mdms = true) (hspm : isFinite spm = true)
    (hspm0 : 0 ≤ val spm) (hceil : fceil (fmul nan mdms spm) ≤ 2 ^ 21) (hpos : isFinite posMs = true)
    (hpos0 : 0 ≤ val posMs) (hle : 2 ^ 48 * val posMs ≤ (2 ^ 24 + 1) ^ 2 * val mdms) :
    isNaN (fmul nan posMs spm) = false ∧ 0 ≤ val (fmul nan posMs spm)
    ∧ val (fmul nan posMs spm) < ((fceil (fmul nan mdms spm)).toNat + 1) * 2 ^ 149 := by
  obtain ⟨w, hw, hval⟩ := exists_quarters (k := 4 * (fceil (fmul nan mdms spm)).toNat + 3) (by omega)
  have hproduct := product_lt_quarter hmdms hspm hceil
  have hscaled : 2 ^ 48 * (val posMs * val spm) ≤ (2 ^ 24 + 1) ^ 2 * (val mdms * val spm) := by
    rw [← mul_assoc, ← mul_assoc]
    exact mul_le_mul_of_nonneg_right hle hspm0
  have hw3 : val posMs * val spm ≤ val w * 2 ^ 149 := by
    rw [hval]
    push_cast
    omega
  obtain ⟨hfin, hge, hle⟩ := fmul_between (nan := nan) (lo := f0) hpos hspm (by decide) hw
    (by rw [val_f0, zero_mul]; exact mul_nonneg hpos0 hspm0) hw3
  rw [val_f0] at hge
  rw [hval] at hle
  exact ⟨isNaN_of_isFinite hfin, hge, by omega⟩

/-- Settles O31: the position is below ceil(x) + 1, and CAP − 1 is not. -/
theorem kernelPositionsAreNotClamped : Obligations.KernelPositionsAreNotClamped := by
  intro p l sr mdms depth delay u nan spm x hsr hmaxDelay hmax _ hceil hok hcap hdepth0 hdepth1 hdelay0 hdelay1 hu0 hu1
  have hf0 : isFinite f0 = true := by decide
  have hf1 : isFinite f1 = true := by decide
  obtain ⟨hmdms, -, hbound⟩ := fle_between hf0 (by decide) (f0_fle_of_maxDelayOk hmaxDelay) hmax
  obtain ⟨hdepth, hdepthGe, hdepthLe⟩ := fle_between hf0 hf1 hdepth0 hdepth1
  obtain ⟨hdelay, hdelayGe, hdelayLe⟩ := fle_between hf0 hmdms hdelay0 hdelay1
  obtain ⟨hu, huGe, huLe⟩ := fle_between (lo := fMinus1) (by decide) hf1 hu0 hu1
  obtain ⟨hspm, hspm0⟩ := samplesPerMs_range nan hsr
  rw [val_f0] at hdepthGe hdelayGe
  rw [val_f1] at hdepthLe huLe
  rw [val_fMinus1] at huGe
  have hm := fraction_of_lfoOutput nan hu huGe huLe
  obtain ⟨hspan, hspanGe, hspanLe⟩ := sweepSpan_range nan ⟨hdepth, hdepthGe, hdepthLe⟩ hmdms hdelay hdelayGe hdelayLe
  obtain ⟨hpos, hpos0, hposLe⟩ := positionMs_range nan hm hdelay hdelayGe (hbound.trans (by decide)) hdelayLe hspan
    hspanGe hspanLe
  obtain ⟨hnan, hge, hlt⟩ := positionSamples_range hmdms hspm hspm0 hceil hpos hpos0 hposLe
  have hroom : (fceil (fmul nan mdms (samplesPerMs nan sr))).toNat + 2 ≤ l.cap.toNat := hcap
  exact clampDelay_legal hok hnan hge (hlt.trans_le (by omega))

end Sys2Proof.Proofs
end

section
/-! # The ramping parameters (R141, R144 to R146) and their reading back (R237, R251) -/

namespace Sys2Proof.Proofs

open Sys2Proof.Machine Sys2Proof.Spec

/-! ## The settled value -/

theorem ramp_settled_of_idle {r : Ramp} (h : r.rem = 0) : r.settled = r.cur := if_pos h

theorem ramp_settled_of_ramping {r : Ramp} (h : r.rem ≠ 0) : r.settled = r.tgt := if_neg h

/-- RPGet sees the target from the moment of the set (R145). -/
theorem ramp_set_settled (nan : Word) (r : Ramp) (t d : Word) : (r.set nan t d).settled = t := by
  by_cases hd : d = 0
  · subst hd
    rw [ramp_set_zero]
    exact ramp_settled_of_idle rfl
  · rw [ramp_set_armed _ _ _ hd]
    exact ramp_settled_of_ramping hd

/-! ## One frame of a ramp, by its case (R144) -/

section Advance

variable (nan : Word) {r : Ramp}

theorem ramp_advance_idle (h : r.rem = 0) : r.advance nan = r := if_pos h

theorem ramp_advance_last (h : r.rem = 1) : r.advance nan = { r with cur := r.tgt, rem := 0 } := by
  simp [Ramp.advance, h]

theorem ramp_advance_adding (h : 1 < r.rem.toNat) :
    r.advance nan = { r with cur := fadd nan r.cur r.step, rem := r.rem - 1 } := by
  have hramping : r.rem ≠ 0 := by bv_omega
  have hleft : r.rem - 1 ≠ 0 := by bv_omega
  rw [Ramp.advance, if_neg hramping, if_neg hleft]

/-- The three cases of R144. -/
theorem ramp_rem_cases (r : Ramp) : r.rem = 0 ∨ r.rem = 1 ∨ 1 < r.rem.toNat := by bv_omega

theorem ramp_advance_step (r : Ramp) : (r.advance nan).step = r.step := by
  rcases ramp_rem_cases r with h | h | h
  · rw [ramp_advance_idle nan h]
  · rw [ramp_advance_last nan h]
  · rw [ramp_advance_adding nan h]

/-- REM counts down to 0 and stays there. -/
theorem ramp_advance_rem (r : Ramp) : (r.advance nan).rem.toNat = r.rem.toNat - 1 := by
  rcases ramp_rem_cases r with h | h | h
  · rw [ramp_advance_idle nan h, h]; rfl
  · rw [ramp_advance_last nan h, h]; rfl
  · rw [ramp_advance_adding nan h]; bv_omega

/-- The settled value does not see the frames pass (R146.3). -/
theorem ramp_advance_settled (r : Ramp) : (r.advance nan).settled = r.settled := by
  rcases ramp_rem_cases r with h | h | h
  · rw [ramp_advance_idle nan h]
  · rw [ramp_advance_last nan h, ramp_settled_of_idle rfl, ramp_settled_of_ramping (by simp [h])]
  · rw [ramp_advance_adding nan h, ramp_settled_of_ramping (show r.rem - 1 ≠ 0 by bv_omega),
      ramp_settled_of_ramping (by bv_omega)]

/-! ## Many frames of a ramp (R146) -/

theorem ramp_advances_step (r : Ramp) (j : Nat) : ((Ramp.advance nan)^[j] r).step = r.step := by
  induction j with
  | zero => rfl
  | succ j ih => rw [Function.iterate_succ_apply', ramp_advance_step, ih]

theorem ramp_advances_rem (r : Ramp) (j : Nat) : ((Ramp.advance nan)^[j] r).rem.toNat = r.rem.toNat - j := by
  induction j with
  | zero => rfl
  | succ j ih => rw [Function.iterate_succ_apply', ramp_advance_rem, ih, Nat.sub_sub]

theorem ramp_advances_settled (r : Ramp) (j : Nat) : ((Ramp.advance nan)^[j] r).settled = r.settled := by
  induction j with
  | zero => rfl
  | succ j ih => rw [Function.iterate_succ_apply', ramp_advance_settled, ih]

/-- Before its last frame a ramp adds the same step each time (R146.1). -/
theorem ramp_advances_cur {j : Nat} (hj : j < r.rem.toNat) :
    ((Ramp.advance nan)^[j] r).cur = (fun c => fadd nan c r.step)^[j] r.cur := by
  induction j with
  | zero => rfl
  | succ j ih =>
    have hmore : 1 < ((Ramp.advance nan)^[j] r).rem.toNat := by rw [ramp_advances_rem]; omega
    rw [Function.iterate_succ_apply', Function.iterate_succ_apply', ramp_advance_adding nan hmore,
      ih (Nat.lt_of_succ_lt hj), ramp_advances_step]

/-- From its last frame on a ramp is idle, on the value that it had settled on before (R146.2). -/
theorem ramp_advances_end {j : Nat} (hj : r.rem.toNat ≤ j) :
    ((Ramp.advance nan)^[j] r).cur = r.settled ∧ ((Ramp.advance nan)^[j] r).rem = 0 := by
  have hidle : ((Ramp.advance nan)^[j] r).rem = 0 :=
    BitVec.eq_of_toNat_eq ((ramp_advances_rem nan r j).trans (Nat.sub_eq_zero_of_le hj))
  exact ⟨by rw [← ramp_settled_of_idle hidle, ramp_advances_settled], hidle⟩

end Advance

theorem ramp_set_rem (nan : Word) (r : Ramp) (t d : Word) : (r.set nan t d).rem = d := by
  by_cases hd : d = 0
  · subst hd; rfl
  · rw [ramp_set_armed _ _ _ hd]

/-- Settles O42: REM counts the frames left, and the settled value, which no frame changes, is CUR once REM is 0. -/
theorem rampEndsExactlyOnTarget : Obligations.RampEndsExactlyOnTarget := by
  intro nan r v d
  have hrem : (r.set nan v d).rem.toNat = d.toNat := by rw [ramp_set_rem]
  have hsettled : (r.set nan v d).settled = v := ramp_set_settled nan r v d
  refine ⟨fun j => ?_, fun j hj => ⟨?_, ?_⟩, fun j hj => ?_⟩
  · rw [ramp_advances_settled, hsettled]
  · have hd : d ≠ 0 := by bv_omega
    have hcur : (r.set nan v d).cur = r.cur := by rw [ramp_set_armed _ _ _ hd]
    rw [ramp_advances_cur nan (hj.trans_eq hrem.symm), hcur]
  · rw [ramp_advances_rem, hrem]
  · have hend := ramp_advances_end nan (hrem.trans_le hj)
    rwa [hsettled] at hend

/-! ## The commands on one ramp (R150 to R152, R251) -/

theorem rampKey_ofSel_of_mem_rampKeys {key : Sel} {k : RampKey} (hkey : (key, k) ∈ rampKeys) :
    RampKey.ofSel key = some k := by
  obtain rfl := eq_keyNumber_of_mem_rampKeys hkey
  rw [RampKey.ofSel, ofSel_keyNumber]

section Commands

variable {key : Sel} {k : RampKey} (hkey : (key, k) ∈ rampKeys) (s : State)

include hkey

theorem exec_rpSet_ramped (v d : Word) : exec (.rpSet key v d) s = .next ((s.rpSet k v d).accept 0x30 []) := by
  simp only [exec, execRpSet, rampKey_ofSel_of_mem_rampKeys hkey]
  rfl

theorem exec_rpFrameValue_ramped :
    exec (.rpFrameValue key) s = .next ((s.rpAdvance k).accept 0x31 [((s.ramp k).advance s.nan).cur]) := by
  simp only [exec, execRpFrameValue, rampKey_ofSel_of_mem_rampKeys hkey]
  rfl

theorem exec_rpGet_ramped : exec (.rpGet key) s = .next (s.accept 0x32 [(s.ramp k).settled]) := by
  simp only [exec, execRpGet, rampKey_ofSel_of_mem_rampKeys hkey]
  rfl

theorem exec_paramGet_ramped :
    exec (.paramGet key) s = .next (s.accept 0x11 [toBoundary s.nan k (s.ramp k).settled]) := by
  obtain rfl := eq_keyNumber_of_mem_rampKeys hkey
  simp only [exec, execParamGet, ofSel_keyNumber]
  rfl

theorem toBoundary_of_mem_rampKeys (nan v : Word) : toBoundary nan k v = if key = 2 then v else fmul nan v f100 := by
  obtain rfl := eq_keyNumber_of_mem_rampKeys hkey
  cases k <;> rfl

end Commands

/-- A command that replaces one ramp and answers leaves the rest of the state. -/
theorem setRamp_accept_frame (s : State) (k : RampKey) (r : Ramp) (opc : BitVec 8) (rs : List Word) :
    (s.setRamp k r).accept opc rs = { s with
      output := s.output ++ ackWord 0 opc :: rs
      depth := ((s.setRamp k r).accept opc rs).depth, delay := ((s.setRamp k r).accept opc rs).delay
      feedback := ((s.setRamp k r).accept opc rs).feedback, dryMix := ((s.setRamp k r).accept opc rs).dryMix
      wetMix := ((s.setRamp k r).accept opc rs).wetMix } := by
  cases k <;> rfl

theorem ramp_setRamp_accept_same (s : State) (k : RampKey) (r : Ramp) (opc : BitVec 8) (rs : List Word) :
    ((s.setRamp k r).accept opc rs).ramp k = r := by
  rw [ramp_accept, State.ramp_setRamp_same]

theorem ramp_setRamp_accept_other (s : State) {k other : RampKey} (r : Ramp) (opc : BitVec 8) (rs : List Word)
    (h : other ≠ k) : ((s.setRamp k r).accept opc rs).ramp other = s.ramp other := by
  rw [ramp_accept, State.ramp_setRamp_other _ _ _ _ h]

/-- Settles O39: RPSet has one case for each kind of duration. -/
theorem rpSetArmsOrSnaps : Obligations.RpSetArmsOrSnaps := by
  intro s key k v d hkey
  refine ⟨_, exec_rpSet_ramped hkey s v d, setRamp_accept_frame .., fun other => ramp_setRamp_accept_other s _ _ _,
    fun hd => ?_, fun hd => ?_⟩
  · exact (ramp_setRamp_accept_same ..).trans (ramp_set_armed _ _ _ hd)
  · subst hd
    exact (ramp_setRamp_accept_same ..).trans (ramp_set_zero ..)

/-- Settles O40: the three values of REM are the three cases of RPFrameValue. -/
theorem rpFrameValueAdvances : Obligations.RpFrameValueAdvances := by
  intro s key k hkey
  have hramp := ramp_setRamp_accept_same s k ((s.ramp k).advance s.nan) 0x31 [((s.ramp k).advance s.nan).cur]
  refine ⟨_, exec_rpFrameValue_ramped hkey s, ?_, fun other => ramp_setRamp_accept_other s _ _ _, fun h => ?_,
    fun h => ?_, fun h => ?_⟩
  · rw [State.rpAdvance, hramp]
    exact setRamp_accept_frame ..
  · exact hramp.trans (ramp_advance_idle _ h)
  · exact hramp.trans (ramp_advance_last _ h)
  · exact hramp.trans (ramp_advance_adding _ h)

/-- Settles O41: RPGet answers the settled value, over the state as it was. -/
theorem rpGetReadsSettledValue : Obligations.RpGetReadsSettledValue := fun s _ _ hkey => exec_rpGet_ramped hkey s

/-- Settles O29: Delay, key 2, is the one ramped key in the same unit on both sides of the boundary. -/
theorem paramGetReadsSettledValue : Obligations.ParamGetReadsSettledValue := by
  intro s key k hkey
  rw [exec_paramGet_ramped hkey, toBoundary_of_mem_rampKeys hkey]
  rfl

/-! ## 50.0 through the boundary and back (R237) -/

theorem fdiv_fifty_hundred (nan : Word) : fdiv nan 0x42480000 f100 = fHalf := by
  rw [fdiv_of_isFinite nan (by decide) (by decide) (by decide)]
  decide

theorem fmul_half_hundred (nan : Word) : fmul nan fHalf f100 = 0x42480000 := by
  rw [fmul_of_isFinite nan (by decide) (by decide)]
  decide

/-- What a PARAM_SET puts in, PARAM_GET reads at once, whatever the duration. -/
theorem exec_paramGet_after_paramSet {key : Sel} {k : RampKey} (hkey : (key, k) ∈ rampKeys) {v : Word}
    {dur : Option Word} {s t u : State} (hset : exec (.paramSet key v dur) s = .next t)
    (hget : exec (.paramGet key) t = .next u) :
    u.output = s.output ++ [0x00001000, 0x00001100, toBoundary s.nan k (toInternal s.nan k v)] := by
  rw [exec_paramSet_ramped hkey] at hset
  cases hset
  have hsettled : (((s.rpSet k (toInternal s.nan k v) (s.duration dur)).accept 0x10 []).ramp k).settled
      = toInternal s.nan k v := by
    rw [State.rpSet, ramp_setRamp_accept_same, ramp_set_settled]
  have hnan : ((s.rpSet k (toInternal s.nan k v) (s.duration dur)).accept 0x10 []).nan = s.nan :=
    congrArg nanWord (State.setRamp_par ..)
  rw [exec_paramGet_ramped hkey, hsettled, hnan] at hget
  cases hget
  rw [State.accept_output, State.accept_output, rpSet_output, List.append_assoc]
  rfl

/-- Settles O30: 50 / 100 and 0.5 × 100 are exact. -/
theorem percentageFiftyRoundTrips : Obligations.PercentageFiftyRoundTrips := by
  intro s t u key dur hmem hset hget
  obtain ⟨k, hkey, hne⟩ : ∃ k, (key, k) ∈ rampKeys ∧ key ≠ 2 := by
    simp only [List.mem_cons, List.not_mem_nil, or_false] at hmem
    rcases hmem with rfl | rfl | rfl | rfl
    · exact ⟨.depth, by decide⟩
    · exact ⟨.feedback, by decide⟩
    · exact ⟨.dryMix, by decide⟩
    · exact ⟨.wetMix, by decide⟩
  have hthere : toInternal s.nan k 0x42480000 = fHalf := by
    rw [toInternal_of_mem_rampKeys hkey, if_neg hne, fdiv_fifty_hundred]
  have hback : toBoundary s.nan k fHalf = 0x42480000 := by
    rw [toBoundary_of_mem_rampKeys hkey, if_neg hne, fmul_half_hundred]
  rw [exec_paramGet_after_paramSet hkey hset hget, hthere, hback]

end Sys2Proof.Proofs
end

section
/-! # The waveforms stay in [−1, 1] (R180 to R183) -/

namespace Sys2Proof.Proofs

open Sys2Proof.Machine

/-! ## Rounding down to an even word -/

/-- With y a spacing above x, a number at most half way from x to y is no nearer to what lies from y on, and as near to
y alone. -/
theorem eq_of_nearest_of_le_midpoint {n x y r : Nat} (hxy : x < y) (hn : 2 * n ≤ x + y) (hr : y ≤ r)
    (hnear : |(n : Int) - r| ≤ |(n : Int) - x|) : r = y ∧ |(n : Int) - r| = |(n : Int) - x| := by
  simp only [abs_eq_max_neg] at hnear ⊢
  omega

/-- A magnitude no further above the bits b than half way to the next is rounded to b at most, if b is even. -/
theorem roundMag_le_of_le_midpoint {n d b : Nat} (hd : 0 < d) (heven : b % 2 = 0)
    (h : 2 * n ≤ (bitsMag b + bitsMag (b + 1)) * d) : roundMag n d ≤ b := by
  rw [roundMag_eq_min]
  refine (Nat.min_le_left _ _).trans (Nat.le_of_not_lt fun hlt => ?_)
  obtain ⟨hnear, htie⟩ := isNearestBits_roundBits n d hd b
  rw [← Nat.cast_mul, ← Nat.cast_mul] at hnear htie
  rw [Nat.add_mul] at h
  obtain ⟨hnext, hequal⟩ := eq_of_nearest_of_le_midpoint
    (Nat.mul_lt_mul_of_pos_right (bitsMag_strictMono b.lt_succ_self) hd) h
    (Nat.mul_le_mul_right d (bitsMag_strictMono.monotone hlt)) hnear
  have hodd : roundBits n d = b + 1 := bitsMag_strictMono.injective (Nat.eq_of_mul_eq_mul_right hd hnext)
  have := htie hequal hlt.ne
  omega

/-- A product no further above an even word w than half way to the next is rounded to w at most. -/
theorem fmul_le_of_le_midpoint {nan a b w : Word} (ha : isFinite a = true) (hb : isFinite b = true)
    (hw : 0 ≤ val w) (heven : magBits w % 2 = 0)
    (h : 2 * (val a * val b) ≤ (val w + bitsMag (magBits w + 1)) * 2 ^ 149) : val (fmul nan a b) ≤ val w := by
  rw [val_eq_bitsMag_of_nonneg hw] at h ⊢
  rw [val_mul_val] at h
  rw [fmul_of_isFinite nan ha hb, val_pack_roundMag]
  split at h
  next hneg => rw [if_pos hneg]; omega
  next hneg =>
    rw [if_neg hneg]
    exact_mod_cast bitsMag_strictMono.monotone
      (roundMag_le_of_le_midpoint (Nat.two_pow_pos 149) heven (by exact_mod_cast h))

/-! ## One arch of the sine (R181) -/

/-- The greatest value of p (0.5 − p). -/
def fSixteenth : Word := 0x3D800000#32

theorem val_fSixteenth : val fSixteenth = 2 ^ 145 := by decide
theorem val_f16 : val f16 = 16 * 2 ^ 149 := by decide

/-- The product of y and 2x − y is at most x², and a factor off by one part in 2^24 adds no more than that part. -/
theorem mul_le_of_le_relative {x y r : Int} (hy : 0 ≤ y) (hr : 2 ^ 24 * r ≤ (2 ^ 24 + 1) * (2 * x - y)) :
    2 ^ 24 * (y * r) ≤ (2 ^ 24 + 1) * x ^ 2 := by
  calc 2 ^ 24 * (y * r) = y * (2 ^ 24 * r) := by ring
    _ ≤ y * ((2 ^ 24 + 1) * (2 * x - y)) := mul_le_mul_of_nonneg_left hr hy
    _ = (2 ^ 24 + 1) * (x ^ 2 - (y - x) ^ 2) := by ring
    _ ≤ (2 ^ 24 + 1) * x ^ 2 := mul_le_mul_of_nonneg_left (sub_le_self _ (sq_nonneg _)) (by norm_num)

/-- The rounding of 0.5 − q, by at most one part in 2^24, leaves the exact product no further above 1/16 than half way
to the next word. -/
theorem parabola_range (nan : Word) {q : Word} (hq : isFinite q = true) (h0 : 0 ≤ val q) (h1 : val q ≤ 2 ^ 148) :
    isFinite (fmul nan q (fsub nan fHalf q)) = true
    ∧ 0 ≤ val (fmul nan q (fsub nan fHalf q)) ∧ val (fmul nan q (fsub nan fHalf q)) ≤ 2 ^ 145 := by
  have hfHalf : isFinite fHalf = true := by decide
  have hf0 : isFinite f0 = true := by decide
  obtain ⟨hrest, hge, hle⟩ := fsub_between (nan := nan) (lo := f0) (hi := fHalf) hfHalf hq hf0 hfHalf
    (by rw [val_f0, val_fHalf]; omega) (by omega)
  have hrel : 2 ^ 24 * val (fsub nan fHalf q) ≤ (2 ^ 24 + 1) * (2 ^ 148 - val q) :=
    fsub_le_relative hfHalf hq (by omega) (by rw [val_fHalf])
  rw [val_f0] at hge
  rw [val_fHalf] at hle
  generalize fsub nan fHalf q = r at *
  have hpos : 0 ≤ val q * val r := mul_nonneg h0 hge
  have hprod : 2 ^ 24 * (val q * val r) ≤ (2 ^ 24 + 1) * (2 ^ 147) ^ 2 := mul_le_of_le_relative h0 (by omega)
  have hnext : bitsMag (magBits fSixteenth + 1) = 2 ^ 145 + 2 ^ 122 := by decide
  obtain ⟨hfin, hnonneg, -⟩ := fmul_between (nan := nan) (lo := f0) (hi := f1) hq hrest hf0 (by decide)
    (by rw [val_f0]; omega) (by rw [val_f1]; omega)
  rw [val_f0] at hnonneg
  have hle16 := fmul_le_of_le_midpoint (nan := nan) (w := fSixteenth) hq hrest (by decide) (by decide)
    (by rw [hnext, val_fSixteenth]; push_cast; omega)
  rw [val_fSixteenth] at hle16
  exact ⟨hfin, hnonneg, hle16⟩

/-- An arch of R181, from 0 up to 1 and back over half a period. -/
theorem arch_range (nan : Word) {q : Word} (hq : isFinite q = true) (h0 : 0 ≤ val q) (h1 : val q ≤ 2 ^ 148) :
    Fraction (fmul nan f16 (fmul nan q (fsub nan fHalf q))) := by
  obtain ⟨hfin, hge, hle⟩ := parabola_range nan hq h0 h1
  obtain ⟨hfin', hge', hle'⟩ := fmul_between (nan := nan) (a := f16) (lo := f0) (hi := f1) (by decide) hfin (by decide)
    (by decide) (by rw [val_f0, val_f16]; omega) (by rw [val_f1, val_f16]; omega)
  exact ⟨hfin', by rwa [val_f0] at hge', by rwa [val_f1] at hle'⟩

/-! ## The three waveforms -/

/-- 4 p at the phase 0.75 (R182). -/
def f3 : Word := 0x40400000#32

theorem val_f3 : val f3 = 3 * 2 ^ 149 := by decide
theorem val_f4 : val f4 = 4 * 2 ^ 149 := by decide
theorem val_fQuarter : val fQuarter = 2 ^ 147 := by decide
theorem val_fThreeQuarters : val fThreeQuarters = 3 * 2 ^ 147 := by decide

/-- The word is a number from −1 to 1; a value is in units of 2^−149. -/
structure Bipolar (w : Word) : Prop where
  finite : isFinite w = true
  ge_neg_one : -2 ^ 149 ≤ val w
  le_one : val w ≤ 2 ^ 149

theorem Bipolar.fle_bounds {w : Word} (h : Bipolar w) : fle fMinus1 w = true ∧ fle w f1 = true := by
  have hnan := isNaN_of_isFinite h.finite
  rw [fle_iff (by decide) hnan, fle_iff hnan (by decide), val_fMinus1, val_f1]
  exact ⟨h.ge_neg_one, h.le_one⟩

theorem Bipolar.of_between {w : Word} (h : isFinite w = true ∧ val fMinus1 ≤ val w ∧ val w ≤ val f1) : Bipolar w := by
  obtain ⟨hfin, hge, hle⟩ := h
  exact ⟨hfin, by rwa [val_fMinus1] at hge, by rwa [val_f1] at hle⟩

theorem Fraction.bipolar {w : Word} (h : Fraction w) : Bipolar w :=
  ⟨h.finite, le_trans (by norm_num) h.nonneg, h.le_one⟩

theorem Fraction.bipolar_fneg {w : Word} (h : Fraction w) : Bipolar (fneg w) := by
  obtain ⟨hfin, hge, hle⟩ := h
  exact ⟨by rwa [isFinite_fneg], by rw [val_fneg]; omega, by rw [val_fneg]; omega⟩

section Waveforms

variable (nan : Word) {p : Word} (hp : isFinite p = true) (h0 : 0 ≤ val p) (h1 : val p < 2 ^ 149)

include hp h0 h1

theorem bipolar_waveSine : Bipolar (waveSine nan p) := by
  have hfHalf : isFinite fHalf = true := by decide
  have hhalf : flt p fHalf = true ↔ val p < 2 ^ 148 := by
    rw [flt_iff (isNaN_of_isFinite hp) (by decide), val_fHalf]
  rw [waveSine]
  split
  next hlow => exact (arch_range nan hp h0 (hhalf.mp hlow).le).bipolar
  next hhigh =>
    rw [hhalf, not_lt] at hhigh
    obtain ⟨hq, hq0, hq1⟩ := fsub_between (nan := nan) (lo := f0) (hi := fHalf) hp hfHalf (by decide) hfHalf
      (by rw [val_f0, val_fHalf]; omega) (by rw [val_fHalf]; omega)
    rw [val_f0] at hq0
    rw [val_fHalf] at hq1
    exact (arch_range nan hq hq0 hq1).bipolar_fneg

/-- Four times the phase, exact or rounded, is between the whole numbers that the exact one is between. -/
theorem bipolar_waveTriangle : Bipolar (waveTriangle nan p) := by
  have hnan := isNaN_of_isFinite hp
  have hf1 : isFinite f1 = true := by decide
  have hf4 : isFinite f4 = true := by decide
  have hm1 : isFinite fMinus1 = true := by decide
  have hquarter : flt p fQuarter = true ↔ val p < 2 ^ 147 := by rw [flt_iff hnan (by decide), val_fQuarter]
  have hthree : flt p fThreeQuarters = true ↔ val p < 3 * 2 ^ 147 := by
    rw [flt_iff hnan (by decide), val_fThreeQuarters]
  have hx {lo hi : Word} (hlo : isFinite lo = true) (hhi : isFinite hi = true)
      (h1 : val lo ≤ 4 * val p) (h2 : 4 * val p ≤ val hi) :=
    fmul_between (nan := nan) hf4 hp hlo hhi (by rw [val_f4]; omega) (by rw [val_f4]; omega)
  rw [waveTriangle]
  split
  next hlow =>
    rw [hquarter] at hlow
    exact .of_between (hx hm1 hf1 (by rw [val_fMinus1]; omega) (by rw [val_f1]; omega))
  next hlow =>
    rw [hquarter, not_lt] at hlow
    split
    next hmid =>
      rw [hthree] at hmid
      obtain ⟨hfin, hge, hle⟩ := hx (hi := f3) hf1 (by decide) (by rw [val_f1]; omega) (by rw [val_f3]; omega)
      rw [val_f1] at hge
      rw [val_f3] at hle
      exact .of_between (fsub_between (by decide) hfin hm1 hf1 (by rw [val_fMinus1, val_f2]; omega)
        (by rw [val_f1, val_f2]; omega))
    next hmid =>
      rw [hthree, not_lt] at hmid
      obtain ⟨hfin, hge, hle⟩ := hx (lo := f3) (by decide) hf4 (by rw [val_f3]; omega) (by rw [val_f4]; omega)
      rw [val_f3] at hge
      rw [val_f4] at hle
      exact .of_between (fsub_between hfin hf4 hm1 hf1 (by rw [val_fMinus1, val_f4]; omega)
        (by rw [val_f1, val_f4]; omega))

theorem bipolar_waveSawtooth : Bipolar (waveSawtooth nan p) := by
  have hf1 : isFinite f1 = true := by decide
  obtain ⟨hfin, hge, hle⟩ := fmul_between (nan := nan) (a := f2) (lo := f0) (hi := f2) (by decide) hp (by decide)
    (by decide) (by rw [val_f0, val_f2]; omega) (by rw [val_f2]; omega)
  rw [val_f0] at hge
  rw [val_f2] at hle
  exact .of_between (fsub_between hfin hf1 (by decide) hf1 (by rw [val_fMinus1, val_f1]; omega)
    (by rw [val_f1]; omega))

end Waveforms

theorem bipolar_wave (nan : Word) (wf : Waveform) {p : Word} (hp : inUnit p = true) : Bipolar (wave nan wf p) := by
  obtain ⟨hfin, h0, h1⟩ := (inUnit_iff p).mp hp
  cases wf with
  | sine => exact bipolar_waveSine nan hfin h0 h1
  | triangle => exact bipolar_waveTriangle nan hfin h0 h1
  | sawtooth => exact bipolar_waveSawtooth nan hfin h0 h1

/-- The model's constants are those that R181 to R183 write out. -/
theorem wave_eq_waveformAt (nan : Word) (wf : Waveform) (p : Word) : wave nan wf p = Spec.waveformAt nan wf p := by
  cases wf with
  | sine | triangle | sawtooth => rfl

/-- Settles O48: every intermediate result is between the words that bound its exact value; the sine's product alone is
not, and is rounded down to 1/16. -/
theorem waveformsStayInRange : Obligations.WaveformsStayInRange := fun nan wf p hp =>
  ⟨wave_eq_waveformAt nan wf p, (bipolar_wave nan wf hp).fle_bounds⟩

end Sys2Proof.Proofs
end

section
/-! # The LFO's commands, and the key Rate (R170, R174 to R178, R190 to R196, R235) -/

namespace Sys2Proof.Proofs

open Sys2Proof.Machine Sys2Proof.Spec

/-! ## LFOSetFrequency -/

/-- FAULTS is a set: recording a reason adds it once (R42, R310). -/
theorem mem_faults_recordFault (s : State) (r q : Fault) : q ∈ (s.recordFault r).faults ↔ q ∈ s.faults ∨ q = r := by
  rw [State.recordFault_faults]
  split
  next hmem => exact ⟨.inl, fun h => h.elim id fun hq => hq ▸ hmem⟩
  next => rw [List.mem_cons, or_comm]

/-- R170, R171. -/
theorem incWritten_setInc (s : State) (inc : Word) : IncWritten s (s.setInc inc) inc := by
  refine ⟨s.setInc_lfo inc, fun hbad => ?_, fun hbad => ?_⟩
  · rw [State.setInc_outOfRange s inc ((incBad_iff inc).mp hbad)]
    exact ⟨rfl, (mem_faults_recordFault ..).mpr (.inr rfl), mem_faults_recordFault _ _⟩
  · rw [incBad_iff, Bool.not_eq_true] at hbad
    rw [State.setInc_inRange s inc hbad]
    exact ⟨rfl, rfl⟩

theorem setInc_frame (s : State) (inc : Word) :
    s.setInc inc = { s with
      lfo := (s.setInc inc).lfo, sticky := (s.setInc inc).sticky, faults := (s.setInc inc).faults } := by
  cases hinc : incOutOfRange inc with
  | true => rw [State.setInc_outOfRange s inc hinc]; rfl
  | false => rw [State.setInc_inRange s inc hinc]

theorem setInc_accept_frame (s : State) (inc : Word) (opc : BitVec 8) (rs : List Word) :
    (s.setInc inc).accept opc rs = { s with
      output := s.output ++ ackWord 0 opc :: rs
      lfo := ((s.setInc inc).accept opc rs).lfo, sticky := ((s.setInc inc).accept opc rs).sticky
      faults := ((s.setInc inc).accept opc rs).faults } := by
  conv_lhs => rw [setInc_frame]
  rfl

/-- Settles O43: the command is LFOSetFrequency, once LIFE is READY. -/
theorem lfoSetFreqWritesIncrement : Obligations.LfoSetFreqWritesIncrement := fun s _ hready =>
  ⟨_, needReady_ready .lfoSetFreq s _ hready, setInc_accept_frame .., incWritten_setInc s _⟩

/-! ## The key Rate -/

theorem exec_paramSet_rate (v : Word) (dur : Option Word) (s : State) :
    exec (.paramSet 1 v dur) s = .next ((s.paramSet .rate v (s.duration dur)).accept 0x10 []) := rfl

theorem exec_paramGet_rate (s : State) :
    exec (.paramGet 1) s = .next { s with output := s.output ++ [0x00001100, s.rate] } := rfl

theorem paramSet_rate_ready {s : State} (h : s.life = .ready) (v d : Word) :
    s.paramSet .rate v d = ({ s with rate := v } : State).setInc (fdiv s.nan v s.cfg.sr) := if_pos h

theorem paramSet_rate_not_ready {s : State} (h : s.life ≠ .ready) (v d : Word) :
    s.paramSet .rate v d = { s with rate := v } := if_neg h

/-- Settles O27: LIFE decides between LFOSetFrequency on the stored rate and the stored rate alone. -/
theorem paramSetRateStoresRate : Obligations.ParamSetRateStoresRate := by
  intro s v dur
  refine ⟨_, exec_paramSet_rate v dur s, ?_⟩
  by_cases hready : s.life = .ready
  · rw [paramSet_rate_ready hready]
    refine ⟨setInc_accept_frame .., fun _ => incWritten_setInc { s with rate := v } _,
      fun h => (nomatch hready.symm.trans h), ?_, exec_paramGet_rate s⟩
    rw [exec_paramGet_rate, State.accept_rate, State.setInc_rate]
  · rw [paramSet_rate_not_ready hready]
    exact ⟨rfl, fun h => absurd h hready, fun _ => ⟨rfl, rfl, rfl⟩, exec_paramGet_rate _, exec_paramGet_rate s⟩

/-! ## Peeks and advances with no model fault -/

theorem lfoAdvance_eq_advancedPhase (nan inc x : Word) : lfoAdvance nan inc x = advancedPhase nan inc x := by
  simp only [lfoAdvance, advancedPhase, Bool.and_eq_true]
  rfl

/-- Wave of a phase in [0, 1), by its formula, over the state as it was. -/
theorem lfoOut_of_inUnit {s : State} {p : Word} (hf : s.faults = []) (hp : inUnit p = true) :
    s.lfoOut p = (waveformAt s.nan s.cfg.wf p, s) := by
  rw [State.lfoOut_specified s p hf hp, wave_eq_waveformAt]

theorem lfoIncrement_of_no_fault {s : State} (hf : s.faults = []) :
    s.lfoIncrement = { s with lfo := { s.lfo with
      ph := advancedPhase s.nan s.lfo.inc s.lfo.ph
      qp := advancedPhase s.nan s.lfo.inc s.lfo.qp } } := by
  rw [State.lfoIncrement_specified s hf, lfoAdvance_eq_advancedPhase, lfoAdvance_eq_advancedPhase]

/-- Settles O44: a peek answers Wave and leaves the state. -/
theorem lfoPeeksChangeNothing : Obligations.LfoPeeksChangeNothing := by
  intro s hf
  refine ⟨fun hph => ?_, fun hqp => ?_⟩
  · simp only [exec, execLfoValue, lfoOut_of_inUnit hf hph]
    rfl
  · simp only [exec, execLfoQuadValue, lfoOut_of_inUnit hf hqp]
    rfl

/-- Settles O45: both commands make one advance, and the answer of the second is a peek before it. -/
theorem lfoAdvancesBothPhases : Obligations.LfoAdvancesBothPhases := by
  intro s hf
  refine ⟨?_, fun hph => ?_⟩
  · simp only [exec, execLfoIncrement, lfoIncrement_of_no_fault hf]
    rfl
  · simp only [exec, execLfoValueAndIncrement, lfoOut_of_inUnit hf hph, lfoIncrement_of_no_fault hf]
    rfl

/-! ## After a model fault -/

section Fault

variable {s : State} (hf : s.faults ≠ [])

include hf

/-- An advance leaves two free values for the phases (R311, log entry 3). -/
theorem lfoIncrement_of_fault :
    s.lfoIncrement = { s with
      lfo := { s.lfo with ph := Config.freeWord s.free, qp := Config.freeWord (s.free + 1) }
      free := s.free + 2 } :=
  if_pos (by simpa [State.lfoUnspecified] using hf)

theorem exec_lfoValue_of_fault :
    exec .lfoValue s = .next { s with
      output := s.output ++ [0x00004100, Config.freeWord s.free], free := s.free + 1 } := by
  simp only [exec, execLfoValue, s.lfoOut_unspecified _ hf]
  rfl

theorem exec_lfoQuadValue_of_fault :
    exec .lfoQuadValue s = .next { s with
      output := s.output ++ [0x00004200, Config.freeWord s.free], free := s.free + 1 } := by
  simp only [exec, execLfoQuadValue, s.lfoOut_unspecified _ hf]
  rfl

theorem exec_lfoValueAndIncrement_of_fault :
    exec .lfoValueAndIncrement s = .next { s with
      output := s.output ++ [0x00004300, Config.freeWord s.free], free := s.free + 3
      lfo := { s.lfo with ph := Config.freeWord (s.free + 1), qp := Config.freeWord (s.free + 2) } } := by
  have hadvance := lfoIncrement_of_fault (s := s.draw.2) hf
  simp only [exec, execLfoValueAndIncrement, s.lfoOut_unspecified _ hf, hadvance]
  rfl

theorem exec_lfoIncrement_of_fault :
    exec .lfoIncrement s = .next { s with
      output := s.output ++ [0x00004400], free := s.free + 2
      lfo := { s.lfo with ph := Config.freeWord s.free, qp := Config.freeWord (s.free + 1) } } := by
  simp only [exec, execLfoIncrement, lfoIncrement_of_fault hf]
  rfl

end Fault

/-- Settles O46: a peek draws one free value and an advance two; each is counted. -/
theorem lfoAfterModelFaultStillRuns : Obligations.LfoAfterModelFaultStillRuns := fun _ hf =>
  ⟨⟨_, _, exec_lfoValue_of_fault hf⟩, ⟨_, _, exec_lfoQuadValue_of_fault hf⟩,
    ⟨_, _, _, _, exec_lfoValueAndIncrement_of_fault hf⟩, _, _, _, exec_lfoIncrement_of_fault hf⟩

/-! ## Save and restore -/

/-- An advance, with a model fault or without, writes the two phases alone of the LFO's registers (R175, R311). -/
theorem lfoIncrement_lfo (s : State) :
    s.lfoIncrement.lfo = { s.lfo with ph := s.lfoIncrement.lfo.ph, qp := s.lfoIncrement.lfo.qp } := by
  by_cases hf : s.faults = []
  · rw [State.lfoIncrement_specified s hf]
  · rw [lfoIncrement_of_fault hf]

theorem lfoIncrement_iterate_lfo (s : State) (n : Nat) :
    (State.lfoIncrement^[n] s).lfo = { s.lfo with
      ph := (State.lfoIncrement^[n] s).lfo.ph, qp := (State.lfoIncrement^[n] s).lfo.qp } := by
  induction n with
  | zero => rfl
  | succ n ih => rw [Function.iterate_succ_apply', lfoIncrement_lfo, ih]

theorem exec_lfoSave (s : State) : exec .lfoSave s = .next { s with
    output := s.output ++ [0x00004500], lfo := { s.lfo with savPh := s.lfo.ph, savQp := s.lfo.qp } } := rfl

theorem exec_lfoRestore (s : State) : exec .lfoRestore s = .next { s with
    output := s.output ++ [0x00004600], lfo := { s.lfo with ph := s.lfo.savPh, qp := s.lfo.savQp } } := rfl

/-- Settles O47: the advances between leave the slot and INC. -/
theorem savedPhasesReplay : Obligations.SavedPhasesReplay := by
  refine ⟨exec_lfoSave, exec_lfoRestore, fun s t u n hsave hrestore => ?_⟩
  cases hsave
  cases hrestore
  rw [State.accept_lfo, State.lfoRestore_lfo, lfoIncrement_iterate_lfo]
  exact ⟨rfl, rfl, rfl⟩

end Sys2Proof.Proofs
end

section
/-! # Render control and the bypassed frame (R210 to R213, R215, R216) -/

namespace Sys2Proof.Proofs

open Sys2Proof.Machine

theorem exec_setBypass (b : Word) (s : State) : exec (.setBypass b) s = .next { s with
    bypPend := b.getLsbD 0, output := s.output ++ [0x00000800] } := rfl

theorem exec_blockBegin (s : State) : exec .blockBegin s = .next { s with
    bypAct := s.bypPend, output := s.output ++ [0x00000900] } := rfl

/-- Settles O22: BLOCK_BEGIN after SET_BYPASS reads the BYP_PEND just written, and their ACK words follow in order. -/
theorem bypassReachesFramesAtBlockBegin : Obligations.BypassReachesFramesAtBlockBegin := by
  refine fun s b => ⟨exec_setBypass b s, exec_blockBegin s, fun t u hset hbegin => ?_⟩
  rw [exec_setBypass] at hset
  cases hset
  rw [exec_blockBegin] at hbegin
  cases hbegin
  rw [List.append_assoc]
  rfl

/-- A FRAME with R80's operand count in READY is decided by BYP_ACT alone (R210, R252). -/
theorem exec_frame_ready {s : State} {xs : List Word} (hready : s.life = .ready)
    (hlen : xs.length = s.cfg.nch.toNat) :
    exec (.frame xs) s = if s.bypAct then finish .frame xs s
      else finish .frame (s.renderFrame xs).1 (s.renderFrame xs).2 := by
  have hcount : xs.length = s.frameOperands := hlen.trans (if_pos hready).symm
  simp only [exec, execFrame, if_neg (not_not_intro hcount), needReady_ready _ _ _ hready]

/-- Settles O23: the branch of a bypassed frame answers its operands over the state as it was. -/
theorem bypassedFrameCopies : Obligations.BypassedFrameCopies := by
  intro s xs hready hbyp hlen
  rw [exec_frame_ready hready hlen, if_pos hbyp]
  rfl

end Sys2Proof.Proofs
end

section
/-! # The boolean keys, and what CONFIGURE commits (R234, R271, R272) -/

namespace Sys2Proof.Proofs

open Sys2Proof.Machine Sys2Proof.Spec

/-! ## The boolean keys -/

/-- The threshold of R234: a NaN, a zero or a negative value is not above +0.0. -/
theorem f0_flt_eq_false_iff (v : Word) : flt f0 v = false ↔ isNaN v = true ∨ val v ≤ 0 := by
  cases hnan : isNaN v with
  | true => simp [compare_of_isNaN (.inr hnan)]
  | false => rw [Bool.eq_false_iff, ne_eq, flt_iff (by decide) hnan, val_f0, not_lt]; simp

/-- Settles O28: the threshold is a comparison with +0.0, and the keys 6 and 7 touch their own register alone. -/
theorem booleanKeysThreshold : Obligations.BooleanKeysThreshold := fun _ v _ =>
  ⟨rfl, rfl, (f0_flt_eq_false_iff v).symm, rfl, rfl⟩

/-! ## The checks of CONFIGURE, by values -/

/-- A word equal to infinity is an infinity of positive sign (R12). -/
theorem feq_fInf_iff {w : Word} (hnan : isNaN w = false) : feq w fInf = true ↔ isInf w = true ∧ 0 ≤ val w := by
  have hvalInf : val fInf = bitsMag infBits := rfl
  rw [feq_iff hnan (by decide), hvalInf, isInf_iff]
  refine ⟨fun h => ?_, fun ⟨hbits, h0⟩ => by rw [val_eq_bitsMag_of_nonneg h0, hbits]⟩
  have h0 : 0 ≤ val w := h ▸ Int.natCast_nonneg _
  rw [val_eq_bitsMag_of_nonneg h0, Int.natCast_inj] at h
  exact ⟨bitsMag_strictMono.injective h, h0⟩

theorem sampleRateOk_iff (sr : Word) :
    sampleRateOk sr = true ↔ isNaN sr = false ∧ 0 < val sr ∧ isInf sr = false := by
  simp only [sampleRateOk, Bool.not_eq_true', Bool.or_eq_false_iff, and_assoc]
  refine and_congr_right fun hnan => ?_
  simp only [Bool.eq_false_iff, ne_eq, fle_iff hnan (show isNaN f0 = false by decide), feq_fInf_iff hnan, val_f0,
    not_le]
  exact and_congr_right fun hpos => by simp [hpos.le]

theorem maxDelayOk_iff (mdms : Word) :
    maxDelayOk mdms = true ↔ isNaN mdms = false ∧ 0 ≤ val mdms ∧ isInf mdms = false := by
  simp only [maxDelayOk, Bool.not_eq_true', Bool.or_eq_false_iff, and_assoc]
  refine and_congr_right fun hnan => ?_
  simp only [Bool.eq_false_iff, ne_eq, flt_iff hnan (show isNaN f0 = false by decide), feq_fInf_iff hnan, val_f0,
    not_lt]
  exact and_congr_right fun hnonneg => by simp [hnonneg]

/-- The checks as R271 states them are enough for the model's. -/
theorem configurationOk_of_accepted {p : Params} {sr nch mf mdms : Word} (h : ConfigAccepted p sr nch mf mdms) :
    configurationOk p sr nch mf mdms = true := by
  obtain ⟨hsr, ⟨hnch, hmax⟩, hmf, hmdms, hfinite, hfits⟩ := h
  refine (configurationOk_iff p sr nch mf mdms).mpr
    ⟨(sampleRateOk_iff sr).mpr hsr, hnch, hmax, hmf, (maxDelayOk_iff mdms).mpr hmdms, ?_, hfits⟩
  cases hnan : isNaN (maxDelaySamples (nanWord p) sr mdms) with
  | true => exact (compare_of_isNaN (.inl hnan)).2.2
  | false =>
    rw [Bool.eq_false_iff, ne_eq, feq_fInf_iff hnan]
    exact fun hinf => Bool.false_ne_true (hfinite.symm.trans hinf.1)

/-! ## The commit -/

theorem ofSel_of_mem_waveforms {k : Sel} {wf : Waveform} (h : (k, wf) ∈ waveforms) : Waveform.ofSel k = some wf := by
  simp only [waveforms, List.mem_cons, Prod.mk.injEq, List.not_mem_nil, or_false] at h
  rcases h with ⟨rfl, rfl⟩ | ⟨rfl, rfl⟩ | ⟨rfl, rfl⟩ <;> rfl

/-- The state of R272 before LFOSetFrequency: the registers and LIFE written, the lines resized. -/
def resizedState (s : State) (wf : Waveform) (sr nch mf mdms : Word) : State :=
  ({ s with cfg := configured s.nan wf sr nch mf mdms, life := .ready } : State).resizeBelow
    (kernelSize s.nan sr mdms) nch.toNat

theorem resizedState_frame (s : State) (wf : Waveform) (sr nch mf mdms : Word) :
    resizedState s wf sr nch mf mdms = { s with
      cfg := configured s.nan wf sr nch mf mdms, life := .ready
      lines := (resizedState s wf sr nch mf mdms).lines } :=
  State.resizeBelow_lines_only ..

theorem line_resizedState (s : State) (wf : Waveform) (sr nch mf mdms : Word) (c : Nat) :
    (resizedState s wf sr nch mf mdms).line c
      = if c < nch.toNat then DelayLine.resized (kernelSize s.nan sr mdms) else s.line c :=
  State.line_resizeBelow ..

theorem commitConfig_eq_setInc (s : State) (wf : Waveform) (sr nch mf mdms : Word) :
    s.commitConfig wf sr nch mf mdms = (resizedState s wf sr nch mf mdms).setInc (fdiv s.nan s.rate sr) := by
  rw [commitConfig_eq, State.lfoSetFrequency, State.resizeBelow_lines_only]
  conv_rhs => rw [resizedState_frame]
  rfl

/-- CONFIGURE with a legal waveform is decided by the six checks. -/
theorem exec_configure {k : Sel} {wf : Waveform} (hk : (k, wf) ∈ waveforms) (sr nch mf mdms : Word) (s : State) :
    exec (.configure k sr nch mf mdms) s =
      if configurationOk s.par sr nch mf mdms then
        .next (((resizedState s wf sr nch mf mdms).setInc (fdiv s.nan s.rate sr)).accept 0x01 [])
      else .next (s.reject .cfgInvalid 0x01) := by
  simp only [exec, execConfigure, ofSel_of_mem_waveforms hk, commitConfig_eq_setInc]
  rfl

/-- CAP_MAX fits in a word, so CAP holds nextPow2(n) itself (R112). -/
theorem toNat_cap_resized {p : Params} {n : Nat} (hn : nextPow2 n ≤ p.capMax) :
    (DelayLine.resized n).cap.toNat = nextPow2 n := by
  rw [DelayLine.resized, BitVec.toNat_ofNat]
  exact Nat.mod_eq_of_lt (hn.trans_lt (capMax_lt p))

theorem line_setInc_accept (s : State) (inc : Word) (opc : BitVec 8) (rs : List Word) (c : Nat) :
    ((s.setInc inc).accept opc rs).line c = s.line c :=
  line_setInc s inc c

/-- Settles O17: the commit is the registers and LIFE, the lines of R272 step 2, then LFOSetFrequency at RATE. -/
theorem configureCommits : Obligations.ConfigureCommits := by
  intro s k wf sr nch mf mdms hk haccepted
  have hok := configurationOk_of_accepted haccepted
  obtain ⟨-, -, -, -, -, -, hfits⟩ := (configurationOk_iff _ _ _ _ _).mp hok
  have hframe := resizedState_frame s wf sr nch mf mdms
  refine ⟨_, (exec_configure hk sr nch mf mdms s).trans (if_pos hok), ?_, fun c hc => ?_, fun c hc => ?_, ?_⟩
  · rw [hframe, State.accept_lines, State.setInc_lines]
    exact setInc_accept_frame ..
  · rw [line_setInc_accept, line_resizedState, if_pos hc]
    exact ⟨toNat_cap_resized hfits, rfl, fun _ => rfl⟩
  · rw [line_setInc_accept, line_resizedState, if_neg (Nat.not_lt.mpr hc)]
  · have hinc := incWritten_setInc (resizedState s wf sr nch mf mdms) (fdiv s.nan s.rate sr)
    rw [hframe] at hinc ⊢
    exact hinc

end Sys2Proof.Proofs
end

section
/-! # The effected frame (R241 to R246, R252, R311)

The channels of a frame touch different lines, so what a channel reads is what the frame's first state holds for it,
however many channels went before. -/

namespace Sys2Proof.Proofs

open Sys2Proof.Machine Sys2Proof.Spec

/-! ## One channel -/

/-- The delay position of channel c (R241, R244). -/
def channelPosition (s : State) (g : FrameInputs) (c : Nat) : Word :=
  delayPosition s.nan s.cfg.spm g (channelLfo s.stereo g c)

/-- What channel c reads from its line (R113). -/
def channelDelayed (s : State) (g : FrameInputs) (c : Nat) : Word :=
  (s.line c).interpolate s.nan ((s.line c).clampDelay (channelPosition s g c)).1

/-- Does the read of channel c clamp (R113)? -/
def channelClamps (s : State) (g : FrameInputs) (c : Nat) : Bool := ((s.line c).clampDelay (channelPosition s g c)).2

/-- The line of channel c after the one write of a frame (R246). -/
def channelWritten (s : State) (g : FrameInputs) (c : Nat) (x : Word) : DelayLine :=
  (s.line c).write (feedbackSample s.nan g x (channelDelayed s g c))

section Channel

variable (s : State) (g : FrameInputs) (c : Nat) (x : Word)

theorem frameChannel_eq : s.frameChannel g c x =
    let r : State := if channelClamps s g c then s.flag .dlyClamp else s
    let s1 := r.dlWrite c (feedbackSample s.nan g x (channelDelayed s g c))
    if s.lfoUnspecified then s1.draw else (mixSample s.nan g x (channelDelayed s g c), s1) := rfl

theorem frameChannel_line (e : Nat) :
    (s.frameChannel g c x).2.line e = if e = c then channelWritten s g c x else s.line e := by
  have hline (r : State) (l : DelayLine) : (r.setLine c l).line e = if e = c then l else r.line e := by
    split
    next h => rw [h, State.line_setLine_same]
    next h => exact State.line_setLine_other r c e l h
  have hread : (if channelClamps s g c then s.flag .dlyClamp else s).line = s.line := by split <;> rfl
  rw [channelWritten, ← hread, ← hline, frameChannel_eq]
  simp only
  split <;> rfl

theorem frameChannel_sticky : (s.frameChannel g c x).2.sticky =
    if channelClamps s g c then s.sticky ||| StickyBit.dlyClamp.mask else s.sticky := by
  rw [frameChannel_eq]
  simp only
  split <;> split <;> rfl

theorem frameChannel_of_no_fault (hf : s.faults = []) :
    (s.frameChannel g c x).1 = mixSample s.nan g x (channelDelayed s g c)
    ∧ (s.frameChannel g c x).2.free = s.free := by
  have hspec : s.lfoUnspecified = false := by simp [State.lfoUnspecified, hf]
  rw [frameChannel_eq, hspec]
  refine ⟨rfl, ?_⟩
  cases channelClamps s g c <;> rfl

@[simp] theorem frameChannel_nan : (s.frameChannel g c x).2.nan = s.nan := by rw [State.frameChannel_state]; rfl

@[simp] theorem frameChannel_faults : (s.frameChannel g c x).2.faults = s.faults := by rw [State.frameChannel_state]

/-- The ramps and the LFO outputs are taken once, so no channel moves another's position (R243, R252). -/
theorem frameChannel_position (e : Nat) : channelPosition (s.frameChannel g c x).2 g e = channelPosition s g e := by
  rw [State.frameChannel_state]
  rfl

variable {c} in
/-- A channel writes its own line alone, so it leaves what every other one reads. -/
theorem frameChannel_reads_other {e : Nat} (he : e ≠ c) :
    (s.frameChannel g c x).2.line e = s.line e
    ∧ channelDelayed (s.frameChannel g c x).2 g e = channelDelayed s g e
    ∧ channelClamps (s.frameChannel g c x).2 g e = channelClamps s g e := by
  have hline : (s.frameChannel g c x).2.line e = s.line e := by rw [frameChannel_line, if_neg he]
  simp only [channelDelayed, channelClamps, frameChannel_position, frameChannel_nan, hline, and_self]

end Channel

/-! ## The channel loop -/

section Loop

variable (g : FrameInputs) (c : Nat) (x : Word) (xs : List Word) (s : State)

theorem frameLoop_cons_state : (State.frameLoop g c (x :: xs) s).2
    = (State.frameLoop g (c + 1) xs (s.frameChannel g c x).2).2 := rfl

theorem frameLoop_cons_samples : (State.frameLoop g c (x :: xs) s).1
    = (s.frameChannel g c x).1 :: (State.frameLoop g (c + 1) xs (s.frameChannel g c x).2).1 := rfl

variable {c xs}

theorem frameLoop_line_outside {e : Nat} (he : e < c ∨ c + xs.length ≤ e) :
    (State.frameLoop g c xs s).2.line e = s.line e := by
  induction xs generalizing c s with
  | nil => rfl
  | cons x xs ih =>
    rw [List.length_cons] at he
    obtain ⟨hline, -, -⟩ := frameChannel_reads_other s g x (show e ≠ c by omega)
    rw [frameLoop_cons_state, ih _ (by omega), hline]

variable {x}

theorem frameLoop_line {j : Nat} (hx : xs[j]? = some x) :
    (State.frameLoop g c xs s).2.line (c + j) = channelWritten s g (c + j) x := by
  induction xs generalizing c j s with
  | nil => cases hx
  | cons y xs ih =>
    rw [frameLoop_cons_state]
    cases j with
    | zero =>
      obtain rfl : y = x := by simpa using hx
      rw [frameLoop_line_outside g _ (by omega), frameChannel_line, if_pos (Nat.add_zero c), Nat.add_zero]
    | succ j =>
      obtain ⟨hline, hdelayed, -⟩ := frameChannel_reads_other s g y (show c + 1 + j ≠ c by omega)
      rw [show c + (j + 1) = c + 1 + j by omega, ih _ (by simpa using hx), channelWritten, hline, hdelayed,
        frameChannel_nan, channelWritten]

variable {s}

theorem frameLoop_sample {j : Nat} (hf : s.faults = []) (hx : xs[j]? = some x) :
    (State.frameLoop g c xs s).1[j]? = some (mixSample s.nan g x (channelDelayed s g (c + j))) := by
  induction xs generalizing c j s with
  | nil => cases hx
  | cons y xs ih =>
    rw [frameLoop_cons_samples]
    cases j with
    | zero =>
      obtain rfl : y = x := by simpa using hx
      obtain ⟨hsample, -⟩ := frameChannel_of_no_fault s g c y hf
      rw [List.getElem?_cons_zero, hsample, Nat.add_zero]
    | succ j =>
      obtain ⟨-, hdelayed, -⟩ := frameChannel_reads_other s g y (show c + 1 + j ≠ c by omega)
      rw [List.getElem?_cons_succ, ih (by rwa [frameChannel_faults]) (by simpa using hx), frameChannel_nan, hdelayed,
        show c + 1 + j = c + (j + 1) by omega]

theorem frameLoop_free (hf : s.faults = []) : (State.frameLoop g c xs s).2.free = s.free := by
  induction xs generalizing c s with
  | nil => rfl
  | cons x xs ih =>
    obtain ⟨-, hfree⟩ := frameChannel_of_no_fault s g c x hf
    rw [frameLoop_cons_state, ih (by rwa [frameChannel_faults]), hfree]

variable (c xs s)

/-- DLY_CLAMP is set where some channel's read clamps (R113, R252). -/
theorem frameLoop_sticky : (State.frameLoop g c xs s).2.sticky =
    if ∃ j < xs.length, channelClamps s g (c + j) = true then s.sticky ||| StickyBit.dlyClamp.mask else s.sticky := by
  induction xs generalizing c s with
  | nil => simp [State.frameLoop]
  | cons x xs ih =>
    have hrest (j : Nat) : channelClamps (s.frameChannel g c x).2 g (c + 1 + j) = channelClamps s g (c + (j + 1)) := by
      obtain ⟨-, -, hclamps⟩ := frameChannel_reads_other s g x (show c + 1 + j ≠ c by omega)
      rw [hclamps, show c + 1 + j = c + (j + 1) by omega]
    simp only [frameLoop_cons_state, ih, frameChannel_sticky, hrest, List.length_cons, Nat.exists_lt_succ_left,
      Nat.add_zero]
    by_cases hlater : ∃ j < xs.length, channelClamps s g (c + (j + 1)) = true
    · simp only [hlater, if_true, or_true]
      split
      · rw [BitVec.or_assoc, BitVec.or_self]
      · rfl
    · simp only [hlater, if_false, or_false]

end Loop

/-! ## The frame -/

/-- The state that the channels of a frame start from: the ramps advanced, both LFO outputs taken (R252). -/
def frameStart (s : State) : State :=
  let i := s.advanceRamps.lfoOut s.advanceRamps.lfo.ph
  (i.2.lfoOut i.2.lfo.qp).2

/-- What the channels of a frame from state s read in common (R241 to R243). -/
def sharedInputs (s : State) : FrameInputs :=
  let i := s.advanceRamps.lfoOut s.advanceRamps.lfo.ph
  let q := i.2.lfoOut i.2.lfo.qp
  q.2.frameInputs i.1 q.1

theorem renderFrame_eq (s : State) (xs : List Word) : s.renderFrame xs =
    ((State.frameLoop (sharedInputs s) 0 xs (frameStart s)).1,
      (State.frameLoop (sharedInputs s) 0 xs (frameStart s)).2.lfoIncrement) := rfl

theorem advanceRamps_eq (s : State) : s.advanceRamps = { s with
    depth := s.depth.advance s.nan, delay := s.delay.advance s.nan, feedback := s.feedback.advance s.nan
    dryMix := s.dryMix.advance s.nan, wetMix := s.wetMix.advance s.nan } := rfl

/-- A frame starts with its ramps; its peeks draw free values at most (R252, R311). -/
theorem frameStart_eq (s : State) : ∃ n, frameStart s = { s with
    depth := s.depth.advance s.nan, delay := s.delay.advance s.nan, feedback := s.feedback.advance s.nan
    dryMix := s.dryMix.advance s.nan, wetMix := s.wetMix.advance s.nan, free := n } := by
  have hpeek (r : State) (p : Word) : ∃ n, (r.lfoOut p).2 = { r with free := n } := by
    rcases r.lfoOut_state p with h | h <;> exact ⟨_, h⟩
  obtain ⟨n, hph⟩ := hpeek s.advanceRamps s.advanceRamps.lfo.ph
  obtain ⟨m, hqp⟩ := hpeek { s.advanceRamps with free := n } s.advanceRamps.lfo.qp
  have hstart : frameStart s = { s.advanceRamps with free := m } := by rw [frameStart, hph]; exact hqp
  rw [advanceRamps_eq] at hstart
  exact ⟨m, hstart⟩

/-- What the channels read of the state besides the ramps is as before the frame. -/
theorem frameStart_kept (s : State) :
    (frameStart s).nan = s.nan ∧ (frameStart s).line = s.line ∧ (frameStart s).sticky = s.sticky
    ∧ (frameStart s).lfo = s.lfo ∧ (frameStart s).faults = s.faults := by
  obtain ⟨n, hstart⟩ := frameStart_eq s
  rw [hstart]
  exact ⟨rfl, rfl, rfl, rfl, rfl⟩

theorem lfoIncrement_frame (s : State) :
    s.lfoIncrement = { s with lfo := s.lfoIncrement.lfo, free := s.lfoIncrement.free } := by
  by_cases hf : s.faults = []
  · rw [State.lfoIncrement_specified s hf]
  · rw [lfoIncrement_of_fault hf]

/-- An effected frame, faulted or not: the ramps advance, and of the rest only the phases, the lines, STICKY and the
count of free values change (R252, R311). -/
theorem renderFrame_frame (s : State) (xs : List Word) : (s.renderFrame xs).2 = { s with
    depth := s.depth.advance s.nan, delay := s.delay.advance s.nan, feedback := s.feedback.advance s.nan
    dryMix := s.dryMix.advance s.nan, wetMix := s.wetMix.advance s.nan
    lfo := { s.lfo with ph := (s.renderFrame xs).2.lfo.ph, qp := (s.renderFrame xs).2.lfo.qp }
    lines := (s.renderFrame xs).2.lines, sticky := (s.renderFrame xs).2.sticky
    free := (s.renderFrame xs).2.free } := by
  obtain ⟨n, hstart⟩ := frameStart_eq s
  have hloop := State.frameLoop_state (sharedInputs s) 0 xs (frameStart s)
  simp only [renderFrame_eq]
  generalize (State.frameLoop (sharedInputs s) 0 xs (frameStart s)).2 = r at hloop ⊢
  have hlfo := lfoIncrement_lfo r
  have hadvance := lfoIncrement_frame r
  rw [hlfo] at hadvance
  rw [State.lfoIncrement_lines, State.lfoIncrement_sticky]
  rw [hstart] at hloop
  generalize r.lfoIncrement.lfo.ph = ph, r.lfoIncrement.lfo.qp = qp, r.lfoIncrement.free = n at hadvance ⊢
  rw [hadvance]
  conv_lhs => rw [hloop]

/-! ## The response to an effected frame -/

/-- The state that an effected frame leaves (R252). -/
def frameAnswer (s : State) (xs : List Word) : State := (s.renderFrame xs).2.accept 0x12 (s.renderFrame xs).1

theorem exec_frame_effected {s : State} {xs : List Word} (hready : s.life = .ready) (hbyp : s.bypAct = false)
    (hlen : xs.length = s.cfg.nch.toNat) : exec (.frame xs) s = .next (frameAnswer s xs) := by
  rw [exec_frame_ready hready hlen, hbyp]
  rfl

section Answer

variable (s : State) {xs : List Word}

theorem frameAnswer_frame : frameAnswer s xs = { s with
    output := s.output ++ 0x00001200 :: (s.renderFrame xs).1
    depth := s.depth.advance s.nan, delay := s.delay.advance s.nan, feedback := s.feedback.advance s.nan
    dryMix := s.dryMix.advance s.nan, wetMix := s.wetMix.advance s.nan
    lfo := { s.lfo with ph := (frameAnswer s xs).lfo.ph, qp := (frameAnswer s xs).lfo.qp }
    lines := (frameAnswer s xs).lines, sticky := (frameAnswer s xs).sticky, free := (frameAnswer s xs).free } := by
  conv_lhs => rw [frameAnswer, renderFrame_frame]
  rfl

theorem frameAnswer_line (c : Nat) :
    (frameAnswer s xs).line c = (State.frameLoop (sharedInputs s) 0 xs (frameStart s)).2.line c :=
  congrArg (Memory.get DelayLine.cleared · c) (State.lfoIncrement_lines _)

theorem frameAnswer_line_written {c : Nat} {x : Word} (hx : xs[c]? = some x) :
    (frameAnswer s xs).line c = (s.line c).write
      (feedbackSample s.nan (sharedInputs s) x (channelDelayed (frameStart s) (sharedInputs s) c)) := by
  obtain ⟨hnan, hline, -⟩ := frameStart_kept s
  have hwritten := frameLoop_line (sharedInputs s) (c := 0) (frameStart s) hx
  rwa [Nat.zero_add, channelWritten, hline, hnan, ← frameAnswer_line] at hwritten

theorem frameAnswer_line_kept {c : Nat} (hc : xs.length ≤ c) : (frameAnswer s xs).line c = s.line c := by
  obtain ⟨-, hline, -⟩ := frameStart_kept s
  rw [frameAnswer_line, frameLoop_line_outside _ _ (.inr (by rwa [Nat.zero_add])), hline]

theorem frameAnswer_sticky : (frameAnswer s xs).sticky =
    if ∃ c < xs.length, channelClamps (frameStart s) (sharedInputs s) c = true then s.sticky ||| 0x10
    else s.sticky := by
  obtain ⟨-, -, hsticky, -⟩ := frameStart_kept s
  have hloop := frameLoop_sticky (sharedInputs s) 0 xs (frameStart s)
  simp only [Nat.zero_add, hsticky] at hloop
  exact (State.lfoIncrement_sticky _).trans hloop

end Answer

/-- Settles O25: what a channel writes is left open, that it writes once into its own line is not. -/
theorem frameAfterModelFaultStillRuns : Obligations.FrameAfterModelFaultStillRuns := by
  intro s xs hready hbyp _ hlen
  refine ⟨_, _, exec_frame_effected hready hbyp hlen, s.renderFrame_length xs, frameAnswer_frame s, fun c hc => ?_,
    fun c => frameAnswer_line_kept s, ?_⟩
  · exact ⟨_, frameAnswer_line_written s (List.getElem?_eq_getElem hc)⟩
  · rw [frameAnswer_sticky]
    split
    · exact .inr rfl
    · exact .inl rfl

/-! ## With no model fault and the phases in range -/

section NoFault

variable {s : State} {xs : List Word} (hf : s.faults = [])

include hf

/-- The one advance of the phases (R243), and no free value but those drawn before the channels. -/
theorem frameAnswer_lfo_of_no_fault : (frameAnswer s xs).lfo = { s.lfo with
      ph := advancedPhase s.nan s.lfo.inc s.lfo.ph, qp := advancedPhase s.nan s.lfo.inc s.lfo.qp }
    ∧ (frameAnswer s xs).free = (frameStart s).free := by
  obtain ⟨hnan, -, -, hlfo, hfaults⟩ := frameStart_kept s
  rw [hf] at hfaults
  rw [frameAnswer, renderFrame_eq, State.accept_lfo, State.accept_free,
    ← frameLoop_free (sharedInputs s) (c := 0) (xs := xs) hfaults]
  obtain ⟨hfaultsEnd, hlfoEnd, hnanEnd⟩ : (State.frameLoop (sharedInputs s) 0 xs (frameStart s)).2.faults = []
      ∧ (State.frameLoop (sharedInputs s) 0 xs (frameStart s)).2.lfo = s.lfo
      ∧ (State.frameLoop (sharedInputs s) 0 xs (frameStart s)).2.nan = s.nan := by
    rw [State.frameLoop_state]
    exact ⟨hfaults, hlfo, hnan⟩
  simp only [lfoIncrement_of_no_fault hfaultsEnd, hlfoEnd, hnanEnd, and_self]

variable (hph : inUnit s.lfo.ph = true) (hqp : inUnit s.lfo.qp = true)

include hph hqp

/-- Both peeks answer Wave and leave the state. -/
theorem frame_peeks_of_no_fault : (frameStart s).free = s.free ∧ sharedInputs s =
    { delay := (s.delay.advance s.nan).cur
      span := sweepSpan s.nan (s.depth.advance s.nan).cur s.cfg.maxDms (s.delay.advance s.nan).cur
      sfb := signedFeedback s.negFb (s.feedback.advance s.nan).cur
      wet := (s.wetMix.advance s.nan).cur
      dry := (s.dryMix.advance s.nan).cur
      vI := waveformAt s.nan s.cfg.wf s.lfo.ph
      vQ := waveformAt s.nan s.cfg.wf s.lfo.qp } := by
  rw [frameStart, sharedInputs, advanceRamps_eq]
  simp only [lfoOut_of_inUnit, hf, hph, hqp, true_and]
  rfl

/-- The reads of the channels, in the words of the statements. -/
theorem channelReads_of_no_fault (c : Nat) :
    channelDelayed (frameStart s) (sharedInputs s) c = frameDelayed s c
    ∧ channelClamps (frameStart s) (sharedInputs s) c = frameClamps s c := by
  obtain ⟨-, hshared⟩ := frame_peeks_of_no_fault hf hph hqp
  have hposition : channelPosition (frameStart s) (sharedInputs s) c = framePosition s c := by
    obtain ⟨n, hstart⟩ := frameStart_eq s
    rw [hstart, hshared]
    rfl
  obtain ⟨hnan, hline, -⟩ := frameStart_kept s
  simp only [channelDelayed, channelClamps, hposition, hline, hnan, frameDelayed, frameClamps, and_self]

end NoFault

/-- Settles O24: the channel loop answers and writes by the formulas of R246 at the positions of R244, and the advance
of the phases is the last write of the frame (R243). -/
theorem frameRendersEveryChannel : Obligations.FrameRendersEveryChannel := by
  intro s xs hready hbyp hf hlen hph hqp
  obtain ⟨hfreeStart, hshared⟩ := frame_peeks_of_no_fault hf hph hqp
  obtain ⟨hlfo, hfree⟩ := frameAnswer_lfo_of_no_fault (xs := xs) hf
  obtain ⟨hnan, -, -, -, hfaults⟩ := frameStart_kept s
  have hreads := channelReads_of_no_fault hf hph hqp
  have hwet : (frameAnswer s xs).wetMix = s.wetMix.advance s.nan := by rw [frameAnswer_frame]
  have hdry : (frameAnswer s xs).dryMix = s.dryMix.advance s.nan := by rw [frameAnswer_frame]
  have hfeedback : (frameAnswer s xs).feedback = s.feedback.advance s.nan := by rw [frameAnswer_frame]
  refine ⟨_, _, exec_frame_effected hready hbyp hlen, s.renderFrame_length xs, ?_, fun c x hx => ⟨?_, ?_⟩,
    fun c => frameAnswer_line_kept s, fun hclamps => ?_, fun hclamps => ?_⟩
  · conv_lhs => rw [frameAnswer_frame, hlfo, hfree, hfreeStart]
  · rw [renderFrame_eq, frameLoop_sample _ (hfaults.trans hf) hx, Nat.zero_add, (hreads c).1, hnan, hshared, hwet,
      hdry]
    rfl
  · rw [frameAnswer_line_written s hx, (hreads c).1, hshared, hfeedback]
    rfl
  · simp only [frameAnswer_sticky, (hreads _).2]
    exact if_pos hclamps
  · simp only [frameAnswer_sticky, (hreads _).2]
    exact if_neg (by simpa using hclamps)

end Sys2Proof.Proofs
end

section
/-! # The first frame after CONFIGURE is silent (R252, R341, R343)

Every ramp is at +0.0, so every channel reads at a zero delay from a cleared line, and weighs what it reads and its
finite input with +0.0. A sum of two zeros is +0.0 as soon as one of them is not negative (R12). -/

namespace Sys2Proof.Proofs

open Sys2Proof.Machine Sys2Proof.Spec

/-! ## Zeros -/

theorem fmul_f0 (nan : Word) {a : Word} (ha : isFinite a = true) : fmul nan f0 a = pack (fsign a) 0 := by
  have hround : roundMag 0 (2 ^ 149) = 0 := roundMag_exact (by norm_num) (by decide) rfl
  have hmag : mag f0 = 0 := by decide
  have hsign : fsign f0 = false := by decide
  rw [fmul_of_isFinite nan (by decide) ha, hmag, Nat.zero_mul, hround, hsign, Bool.false_bne]

/-- A finite zero is +0.0 or −0.0. -/
theorem eq_pack_zero {w : Word} (h0 : val w = 0) : w = pack (fsign w) 0 := by
  have hmag : mag w = 0 := by have := val_eq_or_neg w; omega
  have hbits := (mag_eq_zero_iff w).mp hmag
  apply BitVec.eq_of_toNat_eq
  rw [toNat_pack _ _ (by norm_num), toNat_eq w, hbits]

theorem f0_fadd_zero (nan : Word) (neg : Bool) : fadd nan f0 (pack neg 0) = f0 := by
  obtain ⟨hfin, hval⟩ := val_pack_zero neg
  rw [fadd_of_isFinite nan (by decide) hfin, hval, if_pos (by decide)]
  rfl

theorem fadd_zero_f0 (nan : Word) (neg : Bool) : fadd nan (pack neg 0) f0 = f0 := by
  obtain ⟨hfin, hval⟩ := val_pack_zero neg
  rw [fadd_of_isFinite nan hfin (by decide), hval, if_pos (by decide)]
  cases neg <;> rfl

/-- R246 with both gains at +0.0. -/
theorem mix_silent (nan : Word) {x : Word} (hx : isFinite x = true) :
    fadd nan (fmul nan f0 f0) (fmul nan f0 x) = f0 := by
  rw [fmul_f0 nan hx, fmul_f0 nan (by decide)]
  exact f0_fadd_zero nan _

/-! ## The read -/

/-- R244 with depth and delay at +0.0: a zero, whatever the LFO answers. -/
theorem position_zero (nan : Word) {spm maxDms u : Word} (hspm : isFinite spm = true) (hmax : isFinite maxDms = true)
    (hu : Bipolar u) : ∃ neg, position nan spm maxDms f0 f0 u = pack neg 0 := by
  have hf0 : isFinite f0 = true := by decide
  obtain ⟨hm, -, -⟩ := fraction_of_lfoOutput nan hu.finite hu.ge_neg_one hu.le_one
  obtain ⟨hfar, hvalFar⟩ := val_pack_zero (fsign maxDms)
  obtain ⟨hspan, hvalSpan⟩ := fsub_exact (nan := nan) hfar hf0 hf0 (by rw [hvalFar, val_f0, sub_zero])
  obtain ⟨-, hvalPart⟩ := fmul_exact (nan := nan) hspan hm hf0 (by rw [hvalSpan, val_f0, zero_mul, zero_mul])
  rw [val_f0] at hvalPart
  have hposition : position nan spm maxDms f0 f0 u = fmul nan
      (fadd nan f0 (fmul nan (fsub nan (fmul nan f0 maxDms) f0) (fmul nan (fadd nan u f1) fHalf))) spm := rfl
  exact ⟨fsign spm, by rw [hposition, fmul_f0 nan hmax, eq_pack_zero hvalPart, f0_fadd_zero, fmul_f0 nan hspm]⟩

/-- A cleared line reads +0.0 at a zero delay: of R113's weights 0 and 1 the second is positive. -/
theorem interpolate_cleared (nan : Word) (n : Nat) (neg : Bool) :
    (DelayLine.resized n).interpolate nan (pack neg 0) = f0 := by
  have hf0 : isFinite f0 = true := by decide
  have hf1 : isFinite f1 = true := by decide
  obtain ⟨hfin, hval⟩ := val_pack_zero neg
  have hfloor : (ffloor (pack neg 0)).toNat = 0 := by rw [ffloor, hval]; rfl
  have hcleared (i : Word) : (DelayLine.resized n).readAt i = f0 := rfl
  have hzero : ofUnsigned 0 = f0 := by decide
  simp only [DelayLine.interpolate, hfloor, hcleared, hzero]
  obtain ⟨hfrac, hvalFrac⟩ := fsub_exact (nan := nan) hfin hf0 hf0 (by rw [hval, val_f0, sub_zero])
  obtain ⟨hrest, hvalRest⟩ := fsub_exact (nan := nan) hf1 hfrac hf1 (by rw [hvalFrac, val_f0, sub_zero])
  have hpositive : fsign (fsub nan f1 (fsub nan (pack neg 0) f0)) = false := by
    rw [Bool.eq_false_iff]
    intro hneg
    rw [val_f1, val, if_pos hneg] at hvalRest
    omega
  rw [fmul_comm nan _ f0, fmul_comm nan _ f0, fmul_f0 nan hfrac, fmul_f0 nan hrest, hpositive]
  exact fadd_zero_f0 nan _

/-- A new line of a kernel's size takes a zero delay as it is. -/
theorem clampDelay_zero {p : Params} {n : Nat} (hfits : nextPow2 (n + 2) ≤ p.capMax) (neg : Bool) :
    (DelayLine.resized (n + 2)).clampDelay (pack neg 0) = (pack neg 0, false) := by
  obtain ⟨hfin, hval⟩ := val_pack_zero neg
  have hcap := toNat_cap_resized hfits
  have hsize := le_nextPow2 (n + 2)
  exact clampDelay_legal (resized_ok hfits) (isNaN_of_isFinite hfin) hval.ge (by rw [hval]; omega)

/-! ## From reset to the first frame -/

/-- RATE is 0 at reset, so the first CONFIGURE stores a zero increment (R272). -/
theorem fdiv_f0 (nan : Word) {sr : Word} (h : sampleRateOk sr = true) : fdiv nan f0 sr = pack (fsign sr) 0 := by
  obtain ⟨hnan, hpos, hinf⟩ := (sampleRateOk_iff sr).mp h
  have hmag : mag sr ≠ 0 := by have := val_eq_or_neg sr; omega
  have hmag0 : mag f0 = 0 := by decide
  have hsign : fsign f0 = false := by decide
  have hround : roundMag 0 (mag sr) = 0 := roundMag_exact (Nat.pos_of_ne_zero hmag) (by decide) (Nat.zero_mul _).symm
  rw [fdiv_of_isFinite nan (by decide) (isFinite_of_not_isInf hnan hinf) hmag, hmag0, Nat.zero_mul, hround, hsign,
    Bool.false_bne]

/-- The phases of R341 are in range. -/
theorem inUnit_resetPhases : inUnit f0 = true ∧ inUnit fQuarter = true := by decide

/-- The state after the first CONFIGURE (R272, R341). -/
def firstConfigured (p : Params) (wf : Waveform) (sr nch mf mdms : Word) : State :=
  { State.resetWith p with
    output := [0x00000100], life := .ready, cfg := configured (nanWord p) wf sr nch mf mdms
    lines := (resizedState (State.resetWith p) wf sr nch mf mdms).lines
    lfo := { (State.resetWith p).lfo with inc := pack (fsign sr) 0 } }

/-- A zero increment is in range, so the first CONFIGURE records no model fault. -/
theorem eq_firstConfigured {p : Params} {k : Sel} {wf : Waveform} {sr nch mf mdms : Word} {t : State}
    (hk : (k, wf) ∈ waveforms) (hconfigure : exec (.configure k sr nch mf mdms) (State.resetWith p) = .next t)
    (hready : t.life = .ready) :
    configurationOk p sr nch mf mdms = true ∧ t = firstConfigured p wf sr nch mf mdms := by
  rw [exec_configure hk] at hconfigure
  split at hconfigure
  case isFalse => cases hconfigure; cases hready
  case isTrue hok =>
    obtain ⟨hsr, -⟩ := (configurationOk_iff _ _ _ _ _).mp hok
    have hzero : fdiv (State.resetWith p).nan (State.resetWith p).rate sr = pack (fsign sr) 0 := fdiv_f0 _ hsr
    have hinc : incOutOfRange (pack (fsign sr) 0) = false := by cases fsign sr <;> decide
    rw [hzero, State.setInc_inRange _ _ hinc, resizedState_frame] at hconfigure
    cases hconfigure
    exact ⟨hok, rfl⟩

section FirstFrame

variable {p : Params} {wf : Waveform} {sr nch mf mdms : Word}

theorem line_firstConfigured {c : Nat} (hc : c < nch.toNat) :
    (firstConfigured p wf sr nch mf mdms).line c = DelayLine.resized (kernelSize (nanWord p) sr mdms) :=
  (line_resizedState (State.resetWith p) wf sr nch mf mdms c).trans (if_pos hc)

theorem framePosition_firstConfigured (hok : configurationOk p sr nch mf mdms = true) (c : Nat) :
    ∃ neg, framePosition (firstConfigured p wf sr nch mf mdms) c = pack neg 0 := by
  obtain ⟨hsr, -, -, -, hmaxDelay, -⟩ := (configurationOk_iff _ _ _ _ _).mp hok
  obtain ⟨hnan, -, hinf⟩ := (maxDelayOk_iff mdms).mp hmaxDelay
  obtain ⟨hspm, -⟩ := samplesPerMs_range (nanWord p) hsr
  have hwave {q : Word} (hq : inUnit q = true) : Bipolar (waveformAt (nanWord p) wf q) :=
    wave_eq_waveformAt (nanWord p) wf q ▸ bipolar_wave (nanWord p) wf hq
  refine position_zero (nanWord p) hspm (isFinite_of_not_isInf hnan hinf) ?_
  split
  · exact hwave inUnit_resetPhases.2
  · exact hwave inUnit_resetPhases.1

/-- A channel of the first frame reads +0.0. -/
theorem frameDelayed_firstConfigured (hok : configurationOk p sr nch mf mdms = true) {c : Nat} (hc : c < nch.toNat) :
    frameDelayed (firstConfigured p wf sr nch mf mdms) c = f0 := by
  obtain ⟨-, -, -, -, -, -, hfits⟩ := (configurationOk_iff _ _ _ _ _).mp hok
  obtain ⟨neg, hposition⟩ := framePosition_firstConfigured (wf := wf) hok c
  rw [frameDelayed, hposition, line_firstConfigured hc, kernelSize, clampDelay_zero hfits, interpolate_cleared]

end FirstFrame

/-- Settles O32: every output of the frame is R246's sum of two zeros of which one is +0.0. -/
theorem firstFrameIsSilent : Obligations.FirstFrameIsSilent := by
  intro p k wf sr nch mf mdms xs t hk hconfigure hready hlen hfinite
  obtain ⟨hok, rfl⟩ := eq_firstConfigured hk hconfigure hready
  obtain ⟨hph, hqp⟩ := inUnit_resetPhases
  obtain ⟨u, ys, hexec, hlenOut, hframe, hchannels, -⟩ :=
    frameRendersEveryChannel (firstConfigured p wf sr nch mf mdms) xs rfl rfl rfl hlen hph hqp
  have hwet : u.wetMix.cur = f0 := by rw [hframe]; rfl
  have hdry : u.dryMix.cur = f0 := by rw [hframe]; rfl
  have hsilent : ys = List.replicate xs.length 0x00000000 := by
    refine List.eq_replicate_iff.mpr ⟨hlenOut, fun y hy => ?_⟩
    obtain ⟨c, hc, rfl⟩ := List.mem_iff_getElem.mp hy
    have hx := List.getElem?_eq_getElem (hlenOut ▸ hc)
    obtain ⟨hsample, -⟩ := hchannels c _ hx
    rw [List.getElem?_eq_getElem hc, Option.some_inj, hwet, hdry,
      frameDelayed_firstConfigured hok (by omega), mix_silent _ (hfinite _ (List.getElem_mem _))] at hsample
    exact hsample
  refine ⟨u, hexec, ?_⟩
  rw [hframe, hsilent]

end Sys2Proof.Proofs
end

section
/-! # NOP, RELEASE, STATUS_CLEAR, and the checks that decide CONFIGURE (R271, R276, R282, R284) -/

namespace Sys2Proof.Proofs

open Sys2Proof.Machine Sys2Proof.Spec

/-! ## The checks of CONFIGURE -/

/-- A product that is not negative is not rounded to a negative value: the negative sign is a zero's alone. -/
theorem fmul_nonneg (nan : Word) {a b : Word} (ha : isFinite a = true) (hb : isFinite b = true)
    (hnonneg : 0 ≤ val a * val b) : isNaN (fmul nan a b) = false ∧ 0 ≤ val (fmul nan a b) := by
  rw [val_mul_val] at hnonneg
  rw [fmul_of_isFinite nan ha hb]
  refine ⟨isNaN_pack _ (roundMag_le_infBits _ _), ?_⟩
  rw [val_pack_roundMag]
  cases hsign : fsign a != fsign b with
  | false => exact Int.natCast_nonneg _
  | true =>
    rw [if_pos hsign] at hnonneg
    have hzero : mag a * mag b = 0 := by omega
    have hround : roundMag 0 (2 ^ 149) = 0 := roundMag_exact (by decide) (by decide) (Nat.zero_mul _).symm
    rw [hzero, hround]
    decide

/-- The maximum delay in samples is a number and not negative, so check 5 of R271 need not exclude −∞ or a NaN. -/
theorem maxDelaySamples_nonneg (nan : Word) {sr mdms : Word} (hsr : sampleRateOk sr = true)
    (hmdms : maxDelayOk mdms = true) :
    isNaN (maxDelaySamples nan sr mdms) = false ∧ 0 ≤ val (maxDelaySamples nan sr mdms) := by
  obtain ⟨hnan, hnonneg, hinf⟩ := (maxDelayOk_iff mdms).mp hmdms
  obtain ⟨hspm, hspm0⟩ := samplesPerMs_range nan hsr
  exact fmul_nonneg nan (isFinite_of_not_isInf hnan hinf) hspm (mul_nonneg hnonneg hspm0)

/-- R271's conditions, in their order, are the model's checks. -/
theorem configurationOk_iff_accepted (p : Params) (sr nch mf mdms : Word) :
    configurationOk p sr nch mf mdms = true ↔ ConfigAccepted p sr nch mf mdms := by
  refine ⟨fun hok => ?_, configurationOk_of_accepted⟩
  obtain ⟨hsr, hnch, hmax, hmf, hmdms, hfinite, hfits⟩ := (configurationOk_iff _ _ _ _ _).mp hok
  obtain ⟨hnan, hnonneg⟩ := maxDelaySamples_nonneg (nanWord p) hsr hmdms
  have hnotInf : isInf (maxDelaySamples (nanWord p) sr mdms) = false := by
    rw [Bool.eq_false_iff, ne_eq, feq_fInf_iff hnan] at hfinite
    exact Bool.eq_false_iff.mpr fun hinf => hfinite ⟨hinf, hnonneg⟩
  exact ⟨(sampleRateOk_iff sr).mp hsr, ⟨hnch, hmax⟩, hmf, (maxDelayOk_iff mdms).mp hmdms, hnotInf, hfits⟩

/-- Settles O18: the model's checks are R271's, and they choose between the rejection and the commit. -/
theorem configureChecksDecide : Obligations.ConfigureChecksDecide := by
  refine fun s k wf sr nch mf mdms hk => ⟨fun hfails => ?_, fun haccepted => ?_⟩
  · rw [← configurationOk_iff_accepted] at hfails
    exact (exec_configure hk sr nch mf mdms s).trans (if_neg hfails)
  · obtain ⟨t, hexec, hcommit, -⟩ := configureCommits s k wf sr nch mf mdms hk haccepted
    exact ⟨t, hexec, congrArg State.output hcommit⟩

/-! ## NOP, RELEASE and STATUS_CLEAR -/

theorem exec_nop (s : State) : exec .nop s = .next { s with output := s.output ++ [0x00000000] } := rfl

theorem exec_release (s : State) : exec .release s = .next { s with
    life := .unconfigured, lines := [], output := s.output ++ [0x00000200] } := rfl

theorem exec_statusClear (mask : Word) (s : State) : exec (.statusClear mask) s = .next { s with
    sticky := s.sticky &&& ~~~(mask.setWidth 6), output := s.output ++ [0x00000400] } := rfl

/-- Settles O16: NOP is a response over the state as it was. -/
theorem nopOnlyAnswers : Obligations.NopOnlyAnswers := exec_nop

/-- A channel that is not listed is a line as reset leaves it (R33). -/
theorem line_of_no_lines {s : State} (h : s.lines = []) (c : Nat) : s.line c = DelayLine.cleared := by
  rw [State.line, h]
  rfl

theorem sample_cleared (j : Nat) : DelayLine.cleared.sample j = 0x00000000 := rfl

/-- Settles O19: RELEASE leaves no line listed. -/
theorem releaseTearsDown : Obligations.ReleaseTearsDown := by
  refine fun s => ⟨_, exec_release s, rfl, fun c => ?_⟩
  rw [line_of_no_lines rfl]
  exact ⟨rfl, rfl, sample_cleared⟩

/-- Settles O21: the mask's complement keeps the bits whose mask bit is 0. -/
theorem statusClearClearsMasked : Obligations.StatusClearClearsMasked := by
  refine fun s mask => ⟨_, exec_statusClear mask s, rfl, fun b hb => ?_⟩
  rw [BitVec.getLsbD_and, BitVec.getLsbD_not, BitVec.getLsbD_setWidth]
  simp only [hb, decide_true, Bool.true_and]

end Sys2Proof.Proofs
end

section
/-! # No step stops, and a rejection changes one sticky bit (R300, R303, R307, R310) -/

namespace Sys2Proof.Proofs

open Sys2Proof.Machine Sys2Proof.Spec

/-! ## No step stops -/

/-- The outcome is a next state: neither a fault nor a refusal. -/
def Continues (o : Host.Outcome State Fault Refusal) : Prop := ∃ t, o = .next t

theorem continues_finish (m : Mnemonic) (rs : List Word) (s : State) : Continues (finish m rs s) := ⟨_, rfl⟩

theorem continues_rejected (code : RejectCode) (m : Mnemonic) (s : State) : Continues (rejected code m s) :=
  ⟨_, rfl⟩

section Checks

variable {m : Mnemonic} {s : State} {k : Host.Outcome State Fault Refusal}

theorem continues_needReady (hk : Continues k) : Continues (needReady m s k) := by
  unfold needReady
  split
  · exact hk
  · exact continues_rejected ..

theorem continues_needChannel {c : Sel} (hk : Continues k) : Continues (needChannel m c s k) := by
  unfold needChannel
  split
  · exact hk
  · exact continues_rejected ..

end Checks

theorem continues_configure (k : Sel) (sr nch mf mdms : Word) (s : State) :
    Continues (execConfigure k sr nch mf mdms s) := by
  unfold execConfigure
  split
  · exact continues_rejected ..
  · split
    · exact continues_finish ..
    · exact continues_rejected ..

/-- The length check, which alone can refuse, is passed. -/
theorem continues_frame {xs : List Word} {s : State} (hlen : xs.length = s.frameOperands) :
    Continues (execFrame xs s) := by
  rw [execFrame, if_neg (not_not_intro hlen)]
  refine continues_needReady ?_
  split
  · exact continues_finish ..
  · exact continues_finish ..

theorem continues_dlResize (c : Sel) (n : Word) (s : State) : Continues (execDlResize c n s) := by
  refine continues_needReady (continues_needChannel ?_)
  split
  · exact continues_rejected ..
  · exact continues_finish ..

/-- A command has a next state in each state in which R80 gives it the operands that it has. -/
theorem exec_continues {i : Instr} {s : State} (hi : FrameLength s.frameOperands i) : Continues (exec i s) := by
  cases i with
  | nop | release | statusRead | statusClear | setBypass | blockBegin | lfoValue | lfoQuadValue
  | lfoValueAndIncrement | lfoIncrement | lfoSave | lfoRestore => exact continues_finish ..
  | configure k sr nch mf mdms => exact continues_configure k sr nch mf mdms s
  | frame xs => exact continues_frame (hi xs rfl)
  | paramSet | paramGet | rpSet | rpFrameValue | rpGet =>
    simp only [exec, execParamSet, execParamGet, execRpSet, execRpFrameValue, execRpGet]
    split
    · exact continues_rejected ..
    · exact continues_finish ..
  | dlWrite | dlRead | dlReadAt => exact continues_needReady (continues_needChannel (continues_finish ..))
  | dlResize c n => exact continues_dlResize c n s
  | lfoSetFreq => exact continues_needReady (continues_finish ..)

/-- The fetch builds a FRAME only of the length that R80 gives in the state. -/
theorem frameLength_of_fetch {s : State} {i : Instr} {rest : List Word} (h : s.fetch = .command i rest) :
    FrameLength s.frameOperands i :=
  ((decode_eq_command_iff ..).mp h).2

/-- Settles O4: the one refusal that exec has is for a FRAME that the fetch never builds. -/
theorem stepNeverStops : Obligations.StepNeverStops := by
  intro s
  rcases step_cases s with ⟨-, hs⟩ | ⟨i, rest, -, hfetch, hs⟩ | ⟨why, opc, rest, -, -, hs⟩ | ⟨-, -, hs⟩
  · exact ⟨s, hs⟩
  · have hi : FrameLength s.frameOperands i := frameLength_of_fetch hfetch
    rw [hs]
    exact exec_continues hi
  · exact ⟨_, hs⟩
  · exact ⟨s, hs⟩

/-! ## Which rejection a response tells of -/

theorem Write.keeps_output {i : Instr} {r r' : State} (hw : Write i r r') : r'.output = r.output := by
  cases hw with
  | lfoIncrement => exact State.lfoIncrement_output r
  | rampSet k | rampAdvance k => exact State.setRamp_output ..
  | _ => rfl

theorem writes_output {i : Instr} {s u : State} (hw : Writes i s u) : u.output = s.output := by
  induction hw with
  | refl => rfl
  | tail _ hlast ih => exact hlast.keeps_output.trans ih

/-- The ACK word of a command tells the codes of R301 apart. -/
theorem code_eq_of_ack_eq {i : Instr} {a b : Nat} (ha : a ≤ 4) (hb : b ≤ 4) (h : Spec.ack i a = Spec.ack i b) :
    a = b := by
  have hopc := i.mnemonic.opc.isLt
  have hnat := congrArg BitVec.toNat h
  simp only [Spec.ack, BitVec.toNat_ofNat] at hnat
  omega

theorem number_le (code : RejectCode) : code.number.toNat ≤ 4 := by cases code <;> decide

/-- The sticky bit of a code stands one place below the code's number (R40, R301). -/
theorem sticky_mask_eq (code : RejectCode) : code.sticky.mask = 1#6 <<< (code.number.toNat - 1) := by
  cases code <;> rfl

/-- The codes of two acknowledgements appended to one stream are the same. -/
theorem code_eq_of_output {i : Instr} {out rs results : List Word} {a b : Nat} (ha : a ≤ 4) (hb : b ≤ 4)
    (h : out ++ Spec.ack i a :: rs = out ++ Spec.ack i b :: results) : a = b :=
  code_eq_of_ack_eq ha hb (List.cons.inj (List.append_cancel_left h)).1

/-- A completed command has appended the code 0 (R86). -/
theorem accept_output_of_unchanged {i : Instr} {s u : State} (h : u.output = s.output) (rs : List Word) :
    (u.accept i.mnemonic.opc rs).output = s.output ++ Spec.ack i 0 :: rs := by
  rw [State.accept_output, h, ackWord_eq_ack]
  rfl

/-- R303: a command that has answered a code other than 0 was rejected with that code. -/
theorem Answer.rejected_of_code {i : Instr} {s t : State} {code : Nat} {results : List Word} (ht : Answer i s t)
    (hpos : 0 < code) (hle : code ≤ 4) (hout : t.output = s.output ++ Spec.ack i code :: results) :
    ∃ c : RejectCode, c.number.toNat = code ∧ t = s.reject c i.mnemonic.opc := by
  have hcompleted {u : State} {rs : List Word} (hu : u.output = s.output)
      (hout : (u.accept i.mnemonic.opc rs).output = s.output ++ Spec.ack i code :: results) : False := by
    rw [accept_output_of_unchanged hu] at hout
    exact absurd (code_eq_of_output (Nat.zero_le 4) hle hout) hpos.ne
  cases ht with
  | rejected c =>
    rw [State.reject_output, ackWord_eq_ack] at hout
    exact ⟨c, code_eq_of_output (number_le c) hle hout, rfl⟩
  | completed rs hu => exact (hcompleted (writes_output hu) hout).elim
  | retuned x rs hu _ => exact (hcompleted ((State.setInc_output ..).trans (writes_output hu)) hout).elim

/-- R303: a rejection, by the number of its code. -/
theorem reject_eq (c : RejectCode) (i : Instr) (s : State) : s.reject c i.mnemonic.opc = { s with
    sticky := s.sticky ||| (1#6 <<< (c.number.toNat - 1))
    output := s.output ++ [Spec.ack i c.number.toNat] } := by
  rw [← sticky_mask_eq, ← ackWord_eq_ack]
  rfl

/-- R88: the decoder drops an ILLEGAL word alone, and names its OPC field. -/
theorem decode_eq_illegal {n : Nat} {cw : Word} {ws rest : List Word} {why : DecodeError} {opc : BitVec 8}
    (h : decode n (cw :: ws) = .illegal why opc rest) : rest = ws ∧ opc = opcField cw := by
  cases hcw : decodeHeader cw with
  | error why' =>
    rw [decode_cons_error _ _ _ _ hcw] at h
    cases h
    exact ⟨rfl, rfl⟩
  | ok hd =>
    rw [decode_cons_ok _ _ _ _ hcw] at h
    exact (takeOperands_ne_illegal _ _ _ _ _ _ h).elim

/-- Settles O11: an answer with a code other than 0 is a rejection, and the decoder drops an ILLEGAL word alone. -/
theorem rejectionChangesOneStickyBit : Obligations.RejectionChangesOneStickyBit := by
  refine ⟨fun i s t rest results code hrst hfetch hstep hlow hhigh hout => ?_,
    fun s cw ws rest why opc hrst hinput hfetch => ?_⟩
  · rw [step_of_command s i rest hrst hfetch] at hstep
    obtain ⟨c, rfl, rfl⟩ := (exec_answer hstep).rejected_of_code (Nat.zero_lt_of_lt hlow) hhigh hout
    exact reject_eq c i (s.consumed rest)
  · have hdecode : decode s.frameOperands (cw :: ws) = .illegal why opc rest := hinput ▸ hfetch
    obtain ⟨rfl, hopc⟩ := decode_eq_illegal hdecode
    exact ⟨rfl, hopc, step_of_illegal s why opc rest hrst hfetch⟩

end Sys2Proof.Proofs
end

section
/-! # The reset input and the reset values (R340, R341) -/

namespace Sys2Proof.Proofs

open Sys2Proof.Machine

/-! ## The registers that are read through an accessor -/

/-- R25: each key of RAMPED has its own register, and all five hold the same reset value. -/
theorem ramp_resetWith (p : Params) (k : RampKey) : (State.resetWith p).ramp k = Ramp.reset := by
  cases k <;> rfl

/-- R33: reset lists no line. -/
theorem line_resetWith (p : Params) (c : Nat) : (State.resetWith p).line c = DelayLine.cleared :=
  line_of_no_lines rfl c

/-- Settles O54: every other register is a field of the reset state. -/
theorem resetValuesOfEveryRegister : Obligations.ResetValuesOfEveryRegister := by
  rintro p s rfl
  have hline (c : Nat) : ((State.resetWith p).line c).cap = 1 ∧ ((State.resetWith p).line c).w = 0
      ∧ ((State.resetWith p).line c).sample 0 = 0x00000000 := by
    rw [line_resetWith]
    exact ⟨rfl, rfl, sample_cleared 0⟩
  exact ⟨rfl, rfl, ramp_resetWith p, rfl, rfl, rfl, rfl, rfl, rfl, hline, rfl, rfl⟩

/-! ## The reset input -/

@[simp] theorem rst_assertReset (s : State) : s.assertReset.rst = true := rfl

theorem deliver_of_rst {s : State} (hrst : s.rst = true) (ws : List Word) : s.deliver ws = s := if_pos hrst

/-- The release keeps three fields, none of which the assertion of reset has changed. -/
theorem releaseReset_assertReset (s : State) :
    s.assertReset.releaseReset = { State.resetWith s.par with output := s.output, free := s.free } := rfl

/-- Settles O55: O3 says that a step under reset only idles, and the release starts from the reset state, which has no
waiting word. -/
theorem resetInputDiscardsPartialCommand : Obligations.ResetInputDiscardsPartialCommand := by
  intro s ws
  have hrst : s.assertReset.rst = true := rst_assertReset s
  obtain ⟨step_of_rst, -, -⟩ := incompleteCommandWaits
  exact ⟨deliver_of_rst hrst ws, step_of_rst _ hrst, releaseReset_assertReset s,
    State.releaseReset_input _, State.releaseReset_faults _⟩

end Sys2Proof.Proofs
end
